-- ==== Sys2Proof/Word.lean ====
section
/-! DEFINITION. The words and the numberings of the DF418: bytes, 32-bit words, and the indices of its domains,
windows, initiators and transaction table entries (00_scope.md section 2). -/

namespace Sys2Proof

/-- One byte of a frame, a record or a data lane. -/
abbrev Byte := BitVec 8

/-- A 32-bit address, timebase value or record value. -/
abbrev Word := BitVec 32

/-- D0 to D7. -/
abbrev DomainId := Fin 8

/-- W0 to W15. -/
abbrev WindowId := Fin 16

/-- Initiator 0 to initiator 15. -/
abbrev InitiatorId := Fin 16

/-- The index of a transaction table entry, 0 to 63. -/
abbrev EntryIdx := Fin 64

/-- D0 to D7, in order. -/
abbrev allDomains : List DomainId := List.finRange 8

/-- W0 to W15, in order. -/
abbrev allWindows : List WindowId := List.finRange 16

/-- Initiator 0 to initiator 15, in order. -/
abbrev allInitiators : List InitiatorId := List.finRange 16

/-- Entries 0 to 63, in order. -/
abbrev allEntries : List EntryIdx := List.finRange 64

end Sys2Proof
end

