-- ==== Sys2Proof/Config.lean ====
section
/-! DEFINITION. The fixed sizes and units of the DF418 (00_scope.md section 2). The manual leaves no value of this
part free, so there is no free value here. -/

namespace Sys2Proof.Config

/-- Hold slots that HELD entries may take; the thirty-second data slot is the stall slot (R78). -/
abbrev holdSlots : Nat := 31

/-- Places of the event queue that ordinary records may fill (R141). -/
abbrev ordinaryRecords : Nat := 63

/-- The most records the event queue holds (R141). -/
abbrev queueRecords : Nat := 64

/-- The largest initiator quota (R84). -/
abbrev maxQuota : Nat := 32

/-- One unit of the idle limit, in microseconds (R1). -/
abbrev idleUnit : Nat := 16

/-- One unit of the deep limit, in microseconds (R1). -/
abbrev deepUnit : Nat := 1000

/-- The largest acknowledge limit, in microseconds (R1). -/
abbrev maxAckLimit : Nat := 4095

/-- Bytes in one 4 KiB granule (R36). -/
abbrev granule : Nat := 4096

/-- The largest age a held-entry summary can show, in microseconds (09_formats R184). -/
abbrev maxAge : Nat := 16777215

end Sys2Proof.Config
end

