-- ==== Sys2Proof/Syntax.lean ====
section
/-! DEFINITION. The commands of the DF418: one constructor for each of the 45 rows of spec/opcode_table.json, with the
operands the row's rule gives it. -/

namespace Sys2Proof

/-- Whether bytes are read from memory or written to it (R53). -/
inductive Direction where
  | read
  | write
deriving DecidableEq, Repr

/-- The privilege of a request (R53). -/
inductive Privilege where
  | unprivileged
  | privileged
deriving DecidableEq, Repr

/-- A request as the interconnect presents it, every field at its width (R53, R179). Every value has a meaning. -/
structure Request where
  initiator : InitiatorId
  tag : Byte
  direction : Direction
  privilege : Privilege
  address : Word
  /-- 1 to 63 as written; 0 stands for 64 (R179). -/
  length : BitVec 6
  /-- Lane i holds the byte for address plus i; lanes at and above the length are ignored (R180). -/
  lanes : Vector Byte 64
deriving DecidableEq, Repr

/-- A response as the memory controller presents it (R54, R179). -/
structure MemResponse where
  /-- Not read (R180). -/
  initiator : InitiatorId
  /-- Read as an entry index (R65). -/
  tag : Byte
  code : BitVec 4
  dataCount : BitVec 7
  lanes : Vector Byte 64
deriving DecidableEq, Repr

/-- The two acknowledges of the power channel (R113). -/
inductive AckOutcome where
  | done
  | refused
deriving DecidableEq, Repr

/-- The commands and events of the part, one constructor for each row of the table. A management command carries the
argument bytes of its frame as they are shifted in (R187). -/
inductive Instr where
  /-- ACCEPTANCE (R56): the interconnect presents a request. -/
  | acceptance (request : Request)
  /-- ARRIVAL_NOTICE (R7): the domain controller takes the domain's earliest outstanding notice. -/
  | arrivalNotice (domain : DomainId)
  /-- ISSUE (R63): the memory controller can take a request. -/
  | issue
  /-- DOWNSTREAM_RESPONSE (R65): the memory controller presents a response. -/
  | downstreamResponse (response : MemResponse)
  /-- FORWARDING (R66): the interconnect takes the forward candidate. -/
  | forwarding
  /-- DECLINE_SEND (R67): the interconnect takes the decline candidate. -/
  | declineSend
  /-- RE_EXAMINATION (R97): the request decoder takes a prompted re-examination. -/
  | reExamination
  /-- HOLD_DEADLINE_EXPIRY (R91) of the entry at an index. -/
  | holdDeadlineExpiry (index : EntryIdx)
  /-- STALL_DEADLINE_EXPIRY (R92). -/
  | stallDeadlineExpiry
  /-- IDLE_TIMER_EXPIRY (R8). -/
  | idleTimerExpiry (domain : DomainId)
  /-- DRAIN_COMPLETION (R11). -/
  | drainCompletion (domain : DomainId)
  /-- DEEP_TIMER_EXPIRY (R15). -/
  | deepTimerExpiry (domain : DomainId)
  /-- ACK_TIMER_EXPIRY (R19, R121). -/
  | ackTimerExpiry (domain : DomainId)
  /-- COMMAND_TRANSFER (R116): the memory controller takes the presented power command. -/
  | commandTransfer
  /-- ACKNOWLEDGE (R118): the memory controller presents an acknowledge. -/
  | acknowledge (outcome : AckOutcome) (domain : DomainId)
  /-- KEEP_CLAIM (R134): the domain controller takes the domain's earliest outstanding KEEP claim. -/
  | keepClaim (domain : DomainId)
  /-- RAISE_CLAIM (R135): the domain controller takes the domain's earliest outstanding RAISE claim. -/
  | raiseClaim (domain : DomainId)
  /-- PORT_RESET (R73): PORTRST becomes active. -/
  | portReset
  /-- PORT_RESET_RELEASE (R74): PORTRST becomes inactive. -/
  | portResetRelease
  /-- POWER_ON_RESET (R77): RESETN becomes active. -/
  | powerOnReset
  /-- POWER_ON_RESET_RELEASE (R154): RESETN becomes inactive. -/
  | powerOnResetRelease
  /-- GOVERNING_SWITCH_TAKEN (R32): the domain controller takes the switch to GOVERNING for a domain. -/
  | governingSwitchTaken (domain : DomainId)
  /-- READ_STATUS (R167). -/
  | readStatus
  /-- SET_MODE (R163). -/
  | setMode (mode : Byte)
  /-- READ_WINDOW (R168). -/
  | readWindow (window : Byte)
  /-- WRITE_WINDOW (R35, R183). -/
  | writeWindow (window : Byte) (record : Vector Byte 12)
  /-- READ_DOMAIN (R169). -/
  | readDomain (domain : Byte)
  /-- WRITE_DOMAIN (R24, R184). -/
  | writeDomain (domain : Byte) (record : Vector Byte 8)
  /-- RAISE_ACTION (R26): a DOMAIN ACTION frame whose action byte is 1, RAISE, or a value that names no action, which
  R25 refuses. The argument byte is not read (R171). -/
  | raiseAction (domain action argument : Byte)
  /-- LOWER_ACTION (R27): a DOMAIN ACTION frame with action byte 2. -/
  | lowerAction (domain level : Byte)
  /-- CLEAR_FAULT (R28): a DOMAIN ACTION frame with action byte 3. -/
  | clearFault (domain assumption : Byte)
  /-- VALIDATE (R29): a DOMAIN ACTION frame with action byte 4. The argument byte is not read (R171). -/
  | validate (domain argument : Byte)
  /-- FLUSH (R30): a DOMAIN ACTION frame with action byte 5. The argument byte is not read (R171). -/
  | flush (domain argument : Byte)
  /-- LIST_HELD (R106). -/
  | listHeld (list : Byte)
  /-- READ_INITIATOR (R173). -/
  | readInitiator (initiator : Byte)
  /-- WRITE_INITIATOR (R86, R174, R184): the number, the quota and the byte that holds the strict flag. -/
  | writeInitiator (initiator quota flags : Byte)
  /-- POP_EVENTS (R149): the count k. -/
  | popEvents (count : Byte)
  /-- RECORD_REMOVAL (R149): the last byte of a record has been shifted out. -/
  | recordRemoval
  /-- SET_EVENT_CONTROL (R143, R185): the two mask bytes and the byte of the other three controls. -/
  | setEventControl (maskHigh maskLow flags : Byte)
  /-- BAD_COMMAND (R156, R160): the eighth bit of byte 0, where the code names no command or a command with arguments. -/
  | badCommand (code : Byte)
  /-- FRAME_ABORT (R158): chip select rises before a command is executed, after these bits were shifted in. -/
  | frameAbort (bits : List Bool)
  /-- FRAME_END (R159): chip select rises in the result phase. -/
  | frameEnd
  /-- CHIP_SELECT_FALLING (R156). -/
  | chipSelectFalling
  /-- IGNORING_END (R156): chip select rises while the port is IGNORING. -/
  | ignoringEnd
  /-- TIMEBASE_ADVANCE (R153): one microsecond, 25 periods of REFCLK. -/
  | timebaseAdvance
deriving DecidableEq, Repr

end Sys2Proof
end

