-- ==== Sys2Proof/WellFormed.lean ====
section
/-! DEFINITION. Which terms of Instr stand for an event of their row. The operand types carry the widths of the
formats chapter, and every value of most operands has a meaning or is refused by a status byte; three rows need a
check of their own. -/

namespace Sys2Proof

/-- The twelve commands of the management port (R187). DOMAIN ACTION carries the five domain actions, each a row of its
own. -/
inductive Command where
  | readStatus
  | setMode
  | readWindow
  | writeWindow
  | readDomain
  | writeDomain
  | domainAction
  | listHeld
  | readInitiator
  | writeInitiator
  | popEvents
  | setEventControl
deriving DecidableEq, Repr

/-- The command a code names, none for a code that names no command (R187). -/
def commandOf? (code : Byte) : Option Command :=
  match code.toNat with
  | 0x01 => some .readStatus
  | 0x02 => some .setMode
  | 0x10 => some .readWindow
  | 0x11 => some .writeWindow
  | 0x20 => some .readDomain
  | 0x21 => some .writeDomain
  | 0x22 => some .domainAction
  | 0x30 => some .listHeld
  | 0x38 => some .readInitiator
  | 0x39 => some .writeInitiator
  | 0x40 => some .popEvents
  | 0x41 => some .setEventControl
  | _ => none

/-- The number of argument bytes of a command (R187). -/
def Command.arguments : Command → Nat
  | .readStatus => 0
  | .setMode => 1
  | .readWindow => 1
  | .writeWindow => 13
  | .readDomain => 1
  | .writeDomain => 9
  | .domainAction => 3
  | .listHeld => 1
  | .readInitiator => 1
  | .writeInitiator => 3
  | .popEvents => 1
  | .setEventControl => 3

/-- The number of argument bytes of the command a code names, none for a code that names no command (R187). -/
def commandArguments (code : Byte) : Option Nat :=
  (commandOf? code).map Command.arguments

/-- The action bytes 2 to 5 are the other four domain actions, each a row of its own (R184). -/
def isOtherAction (action : Byte) : Bool :=
  2 ≤ action.toNat && action.toNat ≤ 5

/-- The first eight bits of a frame as its byte 0, most significant bit first (R155). -/
def firstByte (bits : List Bool) : Byte :=
  (bits.take 8).foldl (fun b bit => (b <<< 1) ||| (if bit then 1 else 0)) 0

/-- After these bits no command has been executed: byte 0 is incomplete, or it names a command some of whose argument
bits are still to come (R156, R157, R160). -/
def notYetExecuted (bits : List Bool) : Bool :=
  bits.length < 8 ||
    (match commandArguments (firstByte bits) with
     | some n => bits.length < 8 * (n + 1)
     | none => false)

/-- The term stands for an event of its row: RAISE_ACTION does not carry another action's byte, BAD_COMMAND does not
carry the code of a command that byte 0 alone executes, and the bits of FRAME_ABORT do not complete a command. -/
def Instr.wellFormed : Instr → Bool
  | .raiseAction _ action _ => !isOtherAction action
  | .badCommand code => commandArguments code != some 0
  | .frameAbort bits => notYetExecuted bits
  | _ => true

end Sys2Proof
end

