-- ==== Sys2Proof/Decode.lean ====
section
/-! DEFINITION. What spells a command. The DF418 fetches no instruction, and no row of spec/opcode_table.json gives bits
("fields" is empty in all 45), so no word spells a command (log 21). The bytes of a management frame spell a management
command (R184, R187), and the fields of the signal groups spell a request and an acknowledge (R179, R188). -/

namespace Sys2Proof

/-- The command that a word spells by the table's bits: the table gives none. -/
def decodeTableWord (_nbits _w : Nat) : Option Instr :=
  none

/-! ## Management frames -/

/-- The command code of a command (R187). -/
def Command.code : Command → Byte
  | .readStatus => 0x01
  | .setMode => 0x02
  | .readWindow => 0x10
  | .writeWindow => 0x11
  | .readDomain => 0x20
  | .writeDomain => 0x21
  | .domainAction => 0x22
  | .listHeld => 0x30
  | .readInitiator => 0x38
  | .writeInitiator => 0x39
  | .popEvents => 0x40
  | .setEventControl => 0x41

/-- The action a DOMAIN ACTION frame names by its action byte: 1 RAISE, 2 LOWER, 3 CLEAR FAULT, 4 VALIDATE, 5 FLUSH (R184).
An action byte without a meaning is carried by RAISE_ACTION, which refuses it (log 9). -/
def actionOf (domain action argument : Byte) : Instr :=
  match action.toNat with
  | 2 => .lowerAction domain argument
  | 3 => .clearFault domain argument
  | 4 => .validate domain argument
  | 5 => .flush domain argument
  | _ => .raiseAction domain action argument

/-- The command with the argument bytes of its frame, none where their number is not the command's (R187). -/
def Command.withArguments : Command → List Byte → Option Instr
  | .readStatus, [] => some .readStatus
  | .setMode, [m] => some (.setMode m)
  | .readWindow, [w] => some (.readWindow w)
  | .writeWindow, [w, a, b, c, d, e, f, g, h, i, j, k, l] => some (.writeWindow w #v[a, b, c, d, e, f, g, h, i, j, k, l])
  | .readDomain, [d] => some (.readDomain d)
  | .writeDomain, [d, a, b, c, e, f, g, h, i] => some (.writeDomain d #v[a, b, c, e, f, g, h, i])
  | .domainAction, [d, a, x] => some (actionOf d a x)
  | .listHeld, [l] => some (.listHeld l)
  | .readInitiator, [n] => some (.readInitiator n)
  | .writeInitiator, [n, q, f] => some (.writeInitiator n q f)
  | .popEvents, [k] => some (.popEvents k)
  | .setEventControl, [h, l, f] => some (.setEventControl h l f)
  | _, _ => none

/-- The command that the bytes shifted in up to its execution spell: the code and its argument bytes, and a code that names
no command alone (R157, R160, R187). -/
def frameCommand : List Byte → Option Instr
  | [] => none
  | code :: arguments =>
    match commandOf? code with
    | some c => c.withArguments arguments
    | none => if arguments.isEmpty then some (.badCommand code) else none

/-- The bytes of the frame of a management command, none for a row that is no executed command: BAD_COMMAND with the code
of a command is byte 0 alone (R184, R187; log 8). -/
def Instr.frame : Instr → Option (List Byte)
  | .readStatus => some [Command.readStatus.code]
  | .setMode m => some [Command.setMode.code, m]
  | .readWindow w => some [Command.readWindow.code, w]
  | .writeWindow w r => some (Command.writeWindow.code :: w :: r.toList)
  | .readDomain d => some [Command.readDomain.code, d]
  | .writeDomain d r => some (Command.writeDomain.code :: d :: r.toList)
  | .raiseAction d a x => some [Command.domainAction.code, d, a, x]
  | .lowerAction d l => some [Command.domainAction.code, d, 2, l]
  | .clearFault d a => some [Command.domainAction.code, d, 3, a]
  | .validate d x => some [Command.domainAction.code, d, 4, x]
  | .flush d x => some [Command.domainAction.code, d, 5, x]
  | .listHeld l => some [Command.listHeld.code, l]
  | .readInitiator n => some [Command.readInitiator.code, n]
  | .writeInitiator n q f => some [Command.writeInitiator.code, n, q, f]
  | .popEvents k => some [Command.popEvents.code, k]
  | .setEventControl h l f => some [Command.setEventControl.code, h, l, f]
  | .badCommand code => if (commandOf? code).isSome then none else some [code]
  | .acceptance _ => none
  | .arrivalNotice _ => none
  | .issue => none
  | .downstreamResponse _ => none
  | .forwarding => none
  | .declineSend => none
  | .reExamination => none
  | .holdDeadlineExpiry _ => none
  | .stallDeadlineExpiry => none
  | .idleTimerExpiry _ => none
  | .drainCompletion _ => none
  | .deepTimerExpiry _ => none
  | .ackTimerExpiry _ => none
  | .commandTransfer => none
  | .acknowledge _ _ => none
  | .keepClaim _ => none
  | .raiseClaim _ => none
  | .portReset => none
  | .portResetRelease => none
  | .powerOnReset => none
  | .powerOnResetRelease => none
  | .governingSwitchTaken _ => none
  | .recordRemoval => none
  | .frameAbort _ => none
  | .frameEnd => none
  | .chipSelectFalling => none
  | .ignoringEnd => none
  | .timebaseAdvance => none

/-! ## The fields of the signal groups -/

/-- The direction bit: 0 READ, 1 WRITE (R179, R184). -/
def Direction.bit : Direction → BitVec 1
  | .read => 0
  | .write => 1

/-- The direction a direction bit names (R179). -/
def directionOf (b : BitVec 1) : Direction :=
  if b = 0 then .read else .write

/-- The privilege bit: 0 UNPRIVILEGED, 1 PRIVILEGED (R179, R184). -/
def Privilege.bit : Privilege → BitVec 1
  | .unprivileged => 0
  | .privileged => 1

/-- The privilege a privilege bit names (R179). -/
def privilegeOf (b : BitVec 1) : Privilege :=
  if b = 0 then .unprivileged else .privileged

/-- The request that the fields of the upstream request channel carry, each at its width (R179). -/
def requestOf (initiator : BitVec 4) (tag : Byte) (direction privilege : BitVec 1) (address : Word) (length : BitVec 6)
    (lanes : Vector Byte 64) : Request where
  initiator := initiator.toFin
  tag := tag
  direction := directionOf direction
  privilege := privilegeOf privilege
  address := address
  length := length
  lanes := lanes

/-- The outcome bit of the acknowledge direction: 0 DONE, 1 REFUSED (R188). -/
def AckOutcome.bit : AckOutcome → BitVec 1
  | .done => 0
  | .refused => 1

/-- The acknowledge that the fields of the acknowledge direction carry: every value names one (R188, R189). -/
def acknowledgeOf (outcome : BitVec 1) (domain : BitVec 3) : Instr :=
  .acknowledge (if outcome = 0 then .done else .refused) domain.toFin

end Sys2Proof
end

