-- ==== Sys2Proof/Machine/State.lean ====
section
/-! DEFINITION. Everything the manual gives the DF418 to hold, as plain data, and its values after power-on reset. -/

namespace Sys2Proof.Machine

/-- The two global modes (R163). -/
inductive Mode where
  | transparent
  | governing
deriving DecidableEq, Repr

/-- The six states of a domain (section 1.3). -/
inductive DomainState where
  | active
  | draining
  | entering
  | low
  | exiting
  | fault
deriving DecidableEq, Repr

/-- The two levels of a domain that is not up (section 1.2). -/
inductive Level where
  | retain
  | off
deriving DecidableEq, Repr

/-- Management's standing instruction for a domain (R1, R21). -/
inductive Pin where
  | none
  | holdOn
  | holdLow
deriving DecidableEq, Repr

/-- A running timer: the timebase value at its load, and its length in microseconds (R1, R153). -/
structure Timer where
  load : Word
  limit : Nat
deriving DecidableEq, Repr

/-- A domain record (R1). The held count is the length of the domain's hold list and has no second home here. A timer
that is not running is none. -/
structure Domain where
  state : DomainState
  level : Level
  pin : Pin
  pinLevel : Level
  idleLimit : BitVec 16
  idleTimer : Option Timer
  deepLimit : BitVec 16
  deepTimer : Option Timer
  discardable : Bool
  ackLimit : BitVec 16
  ackTimer : Option Timer
  inFlight : Nat
  wakePending : Bool
  contentsValid : Bool
  wakeStart : Word
deriving DecidableEq, Repr

/-- The power commands (R113). A RAISE carries no level. -/
inductive PowerCommand where
  | lower (level : Level)
  | raise
deriving DecidableEq, Repr

/-- A command slot (R114). A WAITING command keeps its place in the order of handing. -/
inductive Slot where
  | empty
  | waiting (command : PowerCommand) (handed : Nat)
  | taken (command : PowerCommand)
deriving DecidableEq, Repr

/-- The two kinds of window (R33). -/
inductive WindowKind where
  | memory
  | steering
deriving DecidableEq, Repr

/-- What happens to a request that must be held when there is no room (R33, R94). -/
inductive Policy where
  | decline
  | stall
deriving DecidableEq, Repr

/-- A window record (R33). -/
structure Window where
  enable : Bool
  kind : WindowKind
  /-- Address bits 31 to 12. -/
  base : BitVec 20
  /-- One bit for each of address bits 31 to 12; a set bit ignores that address bit. -/
  mask : BitVec 20
  domain : DomainId
  readPrivileged : Bool
  writePrivileged : Bool
  readUnprivileged : Bool
  writeUnprivileged : Bool
  initiatorMask : BitVec 16
  wakePermitted : Bool
  monitored : Bool
  guarded : Bool
  policy : Policy
  reportDeclines : Bool
  raisePermitted : Bool
  holdLimit : BitVec 16
deriving DecidableEq, Repr

/-- The nine hold lists: one for each domain, and the OPEN list (R78). -/
inductive ListId where
  | domain (d : DomainId)
  | openPath
deriving DecidableEq, Repr

/-- The six states of a live entry (R58). -/
inductive EntryState where
  | passing
  | held
  | stalled
  | issued
  | declining
  | orphaned
deriving DecidableEq, Repr

/-- Why an entry is held (R83). -/
inductive HoldReason where
  | wake
  | order
deriving DecidableEq, Repr

/-- The ten DF418 response codes (R54). -/
inductive DeclineCode where
  | tagReuse
  | boundary
  | denied
  | contentLost
  | asleep
  | poolFull
  | holdTimeout
  | wakeRefused
  | domainFault
  | flushed
deriving DecidableEq, Repr

/-- A live transaction table entry (R57), with all that decode captured (R49). -/
structure Entry where
  state : EntryState
  initiator : InitiatorId
  tag : Byte
  direction : Direction
  privilege : Privilege
  address : Word
  /-- 1 to 64. -/
  length : Nat
  /-- The write data while the part keeps it: length bytes for a write that is PASSING, HELD or STALLED. -/
  data : List Byte
  /-- The entry's place in the order of acceptance; only compared (R57). -/
  order : Nat
  arrival : Word
  window : Option WindowId
  list : Option ListId
  counted : Bool
  guarded : Bool
  monitored : Bool
  wakePermitted : Bool
  policy : Policy
  reportDeclines : Bool
  deadline : Option Word
  reason : Option HoldReason
  code : Option DeclineCode
deriving DecidableEq, Repr

/-- Whose candidate the issue arbiter prefers when both exist (R62). -/
inductive IssueTurn where
  | pass
  | release
deriving DecidableEq, Repr

/-- Whose candidate the return arbiter prefers when both exist (R68). -/
inductive ReturnTurn where
  | forward
  | decline
deriving DecidableEq, Repr

/-- An initiator record (R84). -/
structure Initiator where
  quota : Nat
  strict : Bool
  heldCount : Nat
deriving DecidableEq, Repr

/-- The twelve kinds of event record (R145 to R147). -/
inductive EventKind where
  | domainLow
  | domainActive
  | lowerRefused
  | raiseRefused
  | ackTimeout
  | strayAck
  | decline
  | stallBegin
  | strayResponse
  | steeringIgnored
  | portReset
  | overflow
deriving DecidableEq, Repr

/-- An event record (R139). -/
structure Event where
  kind : EventKind
  domain : Option DomainId
  window : Option WindowId
  initiator : Option InitiatorId
  tag : Byte
  code : Byte
  detail : BitVec 16
  timestamp : Word
  value : Word
deriving DecidableEq, Repr

/-- The four recording controls (R143). -/
structure EventControl where
  mask : BitVec 16
  alertEnable : Bool
  globalReport : Bool
  openPolicy : Policy
deriving DecidableEq, Repr

/-- The phase of the frame in progress (R156). -/
inductive Phase where
  | idle
  | command
  /-- The argument bytes of this command are being shifted in. -/
  | arguments (command : Command)
  | result
  | ignoring
deriving DecidableEq, Repr

/-- The management port (R156 to R159). -/
structure Port where
  phase : Phase
  /-- The last-frame-aborted flag (R158). -/
  aborted : Bool
  /-- In RESULT: the status byte and the result bytes fixed at execution, then the bytes of the records that POP EVENTS
  has shifted out whole. -/
  result : List Byte
  /-- Records the POP EVENTS frame in progress has still to shift out (R149). -/
  popLeft : Nat
deriving DecidableEq, Repr

/-- An arrival notice given by the decoder and not yet taken by the domain controller (R7, R48). -/
structure Notice where
  domain : DomainId
  monitored : Bool
  wake : Bool
deriving DecidableEq, Repr

/-- The two actions of a steering claim (R133). -/
inductive SteeringAction where
  | keep
  | raise
deriving DecidableEq, Repr

/-- A steering claim made and not yet taken by the domain controller (R133). -/
structure Claim where
  action : SteeringAction
  domain : DomainId
  window : WindowId
  initiator : InitiatorId
  tag : Byte
  value : Word
deriving DecidableEq, Repr

/-- A request as presented downstream, each field at the width and in the encoding of the link (R63, R179, R180). Write data
is absent for a read (log 22); lanes above the length are 0x00. -/
structure DownRequest where
  initiator : InitiatorId
  tag : Byte
  direction : BitVec 1
  privilege : BitVec 1
  address : Word
  length : BitVec 6
  lanes : Option (Vector Byte 64)
deriving DecidableEq, Repr

/-- A response as sent upstream, each field at its width (R54, R179, R180). Lanes at and above the data count are 0x00. -/
structure UpResponse where
  initiator : InitiatorId
  tag : Byte
  code : BitVec 4
  dataCount : BitVec 7
  lanes : Vector Byte 64
deriving DecidableEq, Repr

/-- The command direction of the power channel while a command is presented (R188). -/
structure CommandLines where
  operation : BitVec 1
  level : BitVec 1
  domain : BitVec 3
deriving DecidableEq, Repr

/-- What has left the part at its ports, oldest first: the model's own record, which no rule reads (log 10). -/
structure Sent where
  downstream : List DownRequest
  upstream : List UpResponse
  commands : List CommandLines
deriving DecidableEq, Repr

/-- The state of the DF418 and the queue of waiting commands. -/
structure State where
  /-- Commands that are waiting, first in, first out (log 1). -/
  pending : List Instr
  /-- RESETN is active. -/
  inReset : Bool
  /-- PORTRST is active. -/
  portReset : Bool
  mode : Mode
  timebase : Word
  windows : Vector Window 16
  domains : Vector Domain 8
  slots : Vector Slot 8
  /-- The next place in the order of handing (R114). -/
  nextHanding : Nat
  table : Vector (Option Entry) 64
  /-- The next place in the order of acceptance (R59). -/
  nextOrder : Nat
  /-- The PASSING entry in the decode stage (R60). -/
  stage : Option EntryIdx
  issueTurn : IssueTurn
  returnTurn : ReturnTurn
  /-- The response that waits on the downstream response channel as forward candidate (R65). -/
  forward : Option MemResponse
  domainLists : Vector (List EntryIdx) 8
  openList : List EntryIdx
  stalled : Option EntryIdx
  holdBudget : Nat
  initiators : Vector Initiator 16
  /-- Re-examinations prompted and not yet taken (R96). -/
  prompts : Nat
  notices : List Notice
  claims : List Claim
  /-- Domains that have not yet taken the switch to GOVERNING (R164). -/
  switches : List DomainId
  events : List Event
  control : EventControl
  port : Port
  sent : Sent
deriving DecidableEq, Repr

/-- Why the machine would stop. Nothing in the manual stops the part: what it calls FAULT is a state of a domain, and
every error is a response code, a status byte or an event record. So there is no constructor. -/
inductive Fault where
deriving DecidableEq, Repr

/-- Why a command has no answer. -/
inductive Refusal where
  /-- Raised by exec's arm of a command that has no meaning yet; safe. No arm of exec raises it. -/
  | notModelled (mnemonic : String)
deriving DecidableEq, Repr

/-- A domain record after power-on reset (R2). -/
def Domain.reset : Domain where
  state := .active
  level := .retain
  pin := .none
  pinLevel := .retain
  idleLimit := 0
  idleTimer := none
  deepLimit := 0
  deepTimer := none
  discardable := false
  ackLimit := 1000
  ackTimer := none
  inFlight := 0
  wakePending := false
  contentsValid := true
  wakeStart := 0

/-- A window record after power-on reset (R34). -/
def Window.reset : Window where
  enable := false
  kind := .memory
  base := 0
  mask := 0
  domain := 0
  readPrivileged := false
  writePrivileged := false
  readUnprivileged := false
  writeUnprivileged := false
  initiatorMask := 0
  wakePermitted := false
  monitored := false
  guarded := false
  policy := .decline
  reportDeclines := false
  raisePermitted := false
  holdLimit := 0

/-- An initiator record after power-on reset (R79). -/
def Initiator.reset : Initiator where
  quota := 8
  strict := false
  heldCount := 0

/-- The recording controls after power-on reset (R154). -/
def EventControl.reset : EventControl where
  mask := 0xFFFF
  alertEnable := false
  globalReport := false
  openPolicy := .decline

/-- The management port after power-on reset with chip select high (R156, R158). -/
def Port.reset : Port where
  phase := .idle
  aborted := false
  result := []
  popLeft := 0

/-- The DF418 right after power-on reset: RESETN has become inactive, PORTRST is inactive, chip select is high and
nothing is presented to the part (R2, R34, R77, R79, R114, R154, R156, R163; log 7). -/
def State.reset : State where
  pending := []
  inReset := false
  portReset := false
  mode := .transparent
  timebase := 0
  windows := Vector.replicate 16 Window.reset
  domains := Vector.replicate 8 Domain.reset
  slots := Vector.replicate 8 .empty
  nextHanding := 0
  table := Vector.replicate 64 none
  nextOrder := 0
  stage := none
  issueTurn := .release
  returnTurn := .forward
  forward := none
  domainLists := Vector.replicate 8 []
  openList := []
  stalled := none
  holdBudget := 0
  initiators := Vector.replicate 16 Initiator.reset
  prompts := 0
  notices := []
  claims := []
  switches := []
  events := []
  control := EventControl.reset
  port := Port.reset
  sent := ⟨[], [], []⟩

end Sys2Proof.Machine
end

