-- ==== Sys2Proof/Machine/Access.lean ====
section
/-! DEFINITION. Reading and writing one record of State: the one place at which the tables are indexed. -/

namespace Sys2Proof.Machine

/-- The domain record of a domain. -/
def State.dom (s : State) (d : DomainId) : Domain :=
  s.domains[d]

/-- Replace a domain record. -/
def State.setDom (s : State) (d : DomainId) (x : Domain) : State :=
  { s with domains := s.domains.set d.val x d.isLt }

/-- The command slot of a domain. -/
def State.slot (s : State) (d : DomainId) : Slot :=
  s.slots[d]

/-- Replace a command slot. -/
def State.setSlot (s : State) (d : DomainId) (x : Slot) : State :=
  { s with slots := s.slots.set d.val x d.isLt }

/-- The window record of a window. -/
def State.win (s : State) (w : WindowId) : Window :=
  s.windows[w]

/-- Replace a window record. -/
def State.setWin (s : State) (w : WindowId) (x : Window) : State :=
  { s with windows := s.windows.set w.val x w.isLt }

/-- The record of an initiator. -/
def State.init (s : State) (n : InitiatorId) : Initiator :=
  s.initiators[n]

/-- Replace an initiator record. -/
def State.setInit (s : State) (n : InitiatorId) (x : Initiator) : State :=
  { s with initiators := s.initiators.set n.val x n.isLt }

/-- The entry at an index, none when it is free. -/
def State.entry (s : State) (i : EntryIdx) : Option Entry :=
  s.table[i]

/-- Replace the entry at an index. -/
def State.setEntry (s : State) (i : EntryIdx) (x : Option Entry) : State :=
  { s with table := s.table.set i.val x i.isLt }

/-- A hold list, head first. -/
def State.held (s : State) : ListId → List EntryIdx
  | .domain d => s.domainLists[d]
  | .openPath => s.openList

/-- Replace a hold list. -/
def State.setHeld (s : State) : ListId → List EntryIdx → State
  | .domain d, x => { s with domainLists := s.domainLists.set d.val x d.isLt }
  | .openPath, x => { s with openList := x }

/-- A function applied to every record of a table, through the list of its records, which Lean's kernel evaluates. -/
def mapTable {α β : Type} {n : Nat} (f : α → β) (v : Vector α n) : Vector β n :=
  ⟨(v.toList.map f).toArray, by simp⟩

/-- The nine hold lists. -/
abbrev allLists : List ListId :=
  allDomains.map .domain ++ [.openPath]

/-- The domain a hold list belongs to; the OPEN list belongs to none. -/
def ListId.domain? : ListId → Option DomainId
  | .domain d => some d
  | .openPath => none

/-- The domain an entry was decoded to, by its captured list (R50). -/
def Entry.domain? (e : Entry) : Option DomainId :=
  e.list.bind ListId.domain?

end Sys2Proof.Machine
end

