-- ==== Sys2Proof/Machine/Operands.lean ====
section
/-! DEFINITION. How values are written on the wires and in frames: the layouts and codes of 09_formats_codes_and_signals,
in both directions. -/

namespace Sys2Proof.Machine

/-! ## Bytes -/

/-- A 16-bit field as two bytes, most significant first (R178). -/
def halfBytes (x : BitVec 16) : List Byte :=
  [x.extractLsb' 8 8, x.extractLsb' 0 8]

/-- A 32-bit field as four bytes, most significant first (R178). -/
def wordBytes (x : Word) : List Byte :=
  [x.extractLsb' 24 8, x.extractLsb' 16 8, x.extractLsb' 8 8, x.extractLsb' 0 8]

/-- One flag as a bit: set at 1 (R178). -/
def flag (b : Bool) : BitVec 1 :=
  BitVec.ofBool b

/-- A domain number from an index byte, read whole (R187). -/
def domainOf? (b : Byte) : Option DomainId :=
  if h : b.toNat < 8 then some ⟨b.toNat, h⟩ else none

/-- A window number from an index byte, read whole (R187). -/
def windowOf? (b : Byte) : Option WindowId :=
  if h : b.toNat < 16 then some ⟨b.toNat, h⟩ else none

/-- An initiator number from an index byte, read whole (R187). -/
def initiatorOf? (b : Byte) : Option InitiatorId :=
  if h : b.toNat < 16 then some ⟨b.toNat, h⟩ else none

/-- A list argument: 0 to 7 name D0 to D7 and 8 names OPEN (R184). -/
def listOf? (b : Byte) : Option ListId :=
  if h : b.toNat < 8 then some (.domain ⟨b.toNat, h⟩)
  else if b.toNat = 8 then some .openPath
  else none

/-- A downstream tag as an entry index; above 63 it names none (R65, R180). -/
def entryOf? (tag : Byte) : Option EntryIdx :=
  if h : tag.toNat < 64 then some ⟨tag.toNat, h⟩ else none

/-! ## The request link -/

/-- The number of bytes of a request: 0 stands for 64 (R179). -/
def requestBytes (length : BitVec 6) : Nat :=
  if length = 0 then 64 else length.toNat

/-- The write data a request carries: its length bytes for a write, absent for a read (R53). -/
def requestData (r : Request) : List Byte :=
  match r.direction with
  | .write => r.lanes.toList.take (requestBytes r.length)
  | .read => []

/-- Sixty-four lanes whose first lanes hold the bytes given and whose others are 0x00 (R180). -/
def lanesOf (data : List Byte) : Vector Byte 64 :=
  Vector.ofFn (fun i => data.getD i.val 0)

/-- The request of an entry as presented downstream, its tag replaced by the entry index (R53, R63). -/
def downRequest (i : EntryIdx) (e : Entry) : DownRequest where
  initiator := e.initiator
  tag := BitVec.ofNat 8 i.val
  direction := e.direction.bit
  privilege := e.privilege.bit
  address := e.address
  length := BitVec.ofNat 6 e.length
  lanes :=
    match e.direction with
    | .write => some (lanesOf e.data)
    | .read => none

/-- Response codes (R181). -/
def DeclineCode.value : DeclineCode → BitVec 4
  | .tagReuse => 0x2
  | .boundary => 0x3
  | .denied => 0x4
  | .contentLost => 0x5
  | .asleep => 0x6
  | .poolFull => 0x7
  | .holdTimeout => 0x8
  | .wakeRefused => 0x9
  | .domainFault => 0xA
  | .flushed => 0xB

/-- The code forwarded for a memory response: OK and MEMORY_ERROR unchanged, any other value as MEMORY_ERROR (R54). -/
def forwardedCode (code : BitVec 4) : BitVec 4 :=
  if code = 0 then 0x0 else 0x1

/-- The read data forwarded for a read answered OK: the entry's length bytes, made up with 0x00 past the data count
(R54, R66, R180). -/
def forwardedData (length : Nat) (r : MemResponse) : List Byte :=
  let given := r.lanes.toList.take (min r.dataCount.toNat 64)
  (given ++ List.replicate (length - given.length) 0).take length

/-- The upstream response that forwards a memory response for an entry (R54, R66). -/
def forwardedResponse (e : Entry) (r : MemResponse) : UpResponse :=
  if e.direction = .read ∧ r.code = 0 then
    { initiator := e.initiator, tag := e.tag, code := 0x0, dataCount := BitVec.ofNat 7 e.length,
      lanes := lanesOf (forwardedData e.length r) }
  else
    { initiator := e.initiator, tag := e.tag, code := forwardedCode r.code, dataCount := 0, lanes := lanesOf [] }

/-- The upstream response that sends an entry's decline, without read data (R54, R67). -/
def declineResponse (e : Entry) (c : DeclineCode) : UpResponse where
  initiator := e.initiator
  tag := e.tag
  code := c.value
  dataCount := 0
  lanes := lanesOf []

/-! ## The power channel -/

/-- The operation bit of a power command: 0 LOWER, 1 RAISE (R188). -/
def PowerCommand.operation : PowerCommand → BitVec 1
  | .lower _ => 0
  | .raise => 1

/-- The level bit of a power command: 0 RETAIN, 1 OFF, and driven 0 for RAISE (R188). -/
def PowerCommand.levelBit : PowerCommand → BitVec 1
  | .lower .retain => 0
  | .lower .off => 1
  | .raise => 0

/-- The command direction while the command of a domain is presented (R188). -/
def commandLines (d : DomainId) (c : PowerCommand) : CommandLines where
  operation := c.operation
  level := c.levelBit
  domain := BitVec.ofNat 3 d.val

/-! ## The steering word -/

/-- The value of a steering word, its first byte at bits 7 to 0 (R182). -/
def steeringValue (lanes : Vector Byte 64) : Word :=
  lanes[3] ++ lanes[2] ++ lanes[1] ++ lanes[0]

/-- The domains whose flag is set in the mask of a steering word, bits 15 to 8 (R182). -/
def steeringDomains (value : Word) : List DomainId :=
  allDomains.filter (fun d => value.getLsbD (8 + d.val))

/-! ## Codes of the records -/

/-- State codes (R184). -/
def DomainState.value : DomainState → BitVec 3
  | .active => 0
  | .draining => 1
  | .entering => 2
  | .low => 3
  | .exiting => 4
  | .fault => 5

/-- Level codes (R184). -/
def Level.value : Level → BitVec 1
  | .retain => 0
  | .off => 1

/-- Pin codes (R184). -/
def Pin.value : Pin → BitVec 2
  | .none => 0
  | .holdOn => 1
  | .holdLow => 2

/-- Kind codes (R186). -/
def EventKind.value : EventKind → Byte
  | .domainLow => 0x01
  | .domainActive => 0x02
  | .lowerRefused => 0x03
  | .raiseRefused => 0x04
  | .ackTimeout => 0x05
  | .strayAck => 0x06
  | .decline => 0x07
  | .stallBegin => 0x08
  | .strayResponse => 0x09
  | .steeringIgnored => 0x0A
  | .portReset => 0x0B
  | .overflow => 0x0F

/-- The recording mask bit of a kind; OVERFLOW has none (R186). -/
def EventKind.maskBit : EventKind → Option Nat
  | .domainLow => some 0
  | .domainActive => some 1
  | .lowerRefused => some 2
  | .raiseRefused => some 3
  | .ackTimeout => some 4
  | .strayAck => some 5
  | .decline => some 6
  | .stallBegin => some 7
  | .strayResponse => some 8
  | .steeringIgnored => some 9
  | .portReset => some 10
  | .overflow => none

/-- The detail of a DECLINE record: bit 15 the direction, bits 6 to 0 the length (R186). -/
def declineDetail (direction : Direction) (length : Nat) : BitVec 16 :=
  direction.bit ++ (0 : BitVec 8) ++ BitVec.ofNat 7 length

/-- The detail of a STRAY_RESPONSE record by what stands at the index (R186). It is not used for ISSUED and ORPHANED
entries, whose responses are not stray (R65). -/
def strayDetail : Option Entry → BitVec 16
  | none => 0
  | some e =>
    match e.state with
    | .passing => 1
    | .held => 2
    | .stalled => 3
    | .declining => 4
    | .issued => 0
    | .orphaned => 0

/-- A result status (R162, R187). -/
inductive Status where
  | ok
  | badCommand
  | badIndex
  | badValue
  | busy
deriving DecidableEq, Repr

/-- Status codes (R187). -/
def Status.value : Status → Byte
  | .ok => 0x00
  | .badCommand => 0x01
  | .badIndex => 0x02
  | .badValue => 0x03
  | .busy => 0x04

/-! ## The window record -/

/-- A window kind, or no meaning (R183). -/
def kindOf? (x : BitVec 2) : Option WindowKind :=
  if x = 0 then some .memory else if x = 1 then some .steering else none

/-- An exhaustion policy, or no meaning (R183, R185). -/
def policyOf? (x : BitVec 2) : Option Policy :=
  if x = 0 then some .decline else if x = 1 then some .stall else none

/-- The window a 12-byte record describes, none where its domain, kind or policy has no meaning (R35, R183). -/
def windowOfRecord? (r : Vector Byte 12) : Option Window :=
  match kindOf? (r[0].extractLsb' 1 2), policyOf? (r[0].extractLsb' 3 2), domainOf? (r[1] &&& 0x0F) with
  | some kind, some policy, some domain =>
    some
      { enable := r[0].getLsbD 0
        kind := kind
        base := r[3] ++ r[4] ++ r[5].extractLsb' 4 4
        mask := r[5].extractLsb' 0 4 ++ r[6] ++ r[7]
        domain := domain
        readPrivileged := r[2].getLsbD 0
        writePrivileged := r[2].getLsbD 1
        readUnprivileged := r[2].getLsbD 2
        writeUnprivileged := r[2].getLsbD 3
        initiatorMask := r[8] ++ r[9]
        wakePermitted := r[2].getLsbD 4
        monitored := r[2].getLsbD 5
        guarded := r[2].getLsbD 6
        policy := policy
        reportDeclines := r[2].getLsbD 7
        raisePermitted := r[1].getLsbD 4
        holdLimit := r[10] ++ r[11] }
  | _, _, _ => none

/-- The 12 bytes of a window record (R183). -/
def Window.bytes (w : Window) : List Byte :=
  [ (0 : BitVec 3) ++ (match w.policy with | .decline => (0 : BitVec 2) | .stall => 1)
      ++ (match w.kind with | .memory => (0 : BitVec 2) | .steering => 1) ++ flag w.enable,
    (0 : BitVec 3) ++ flag w.raisePermitted ++ BitVec.ofNat 4 w.domain.val,
    flag w.reportDeclines ++ flag w.guarded ++ flag w.monitored ++ flag w.wakePermitted
      ++ flag w.writeUnprivileged ++ flag w.readUnprivileged ++ flag w.writePrivileged ++ flag w.readPrivileged,
    w.base.extractLsb' 12 8,
    w.base.extractLsb' 4 8,
    w.base.extractLsb' 0 4 ++ w.mask.extractLsb' 16 4,
    w.mask.extractLsb' 8 8,
    w.mask.extractLsb' 0 8 ]
  ++ halfBytes w.initiatorMask ++ halfBytes w.holdLimit

/-! ## The domain record -/

/-- The six fields a WRITE DOMAIN carries (R24). -/
structure DomainConfig where
  idleLimit : BitVec 16
  deepLimit : BitVec 16
  ackLimit : BitVec 16
  discardable : Bool
  pin : Pin
  pinLevel : Level
deriving DecidableEq, Repr

/-- A pin, or no meaning (R184). -/
def pinOf? (x : BitVec 2) : Option Pin :=
  if x = 0 then some .none else if x = 1 then some .holdOn else if x = 2 then some .holdLow else none

/-- A pin level, or no meaning (R184). -/
def pinLevelOf? (x : BitVec 2) : Option Level :=
  if x = 0 then some .retain else if x = 1 then some .off else none

/-- The configuration an 8-byte record describes, none where R24 refuses it with BAD_VALUE: an ack limit, pin or pin level
with no meaning, or pin HOLD_LOW with pin level OFF and discardable clear. -/
def configOf? (r : Vector Byte 8) : Option DomainConfig :=
  match pinOf? (r[6].extractLsb' 1 2), pinLevelOf? (r[6].extractLsb' 3 2) with
  | some pin, some pinLevel =>
    let ackLimit : BitVec 16 := r[4] ++ r[5]
    let discardable := r[6].getLsbD 0
    if ackLimit = 0 ∨ Config.maxAckLimit < ackLimit.toNat then none
    else if pin = .holdLow ∧ pinLevel = .off ∧ discardable = false then none
    else
      some
        { idleLimit := r[0] ++ r[1], deepLimit := r[2] ++ r[3], ackLimit := ackLimit,
          discardable := discardable, pin := pin, pinLevel := pinLevel }
  | _, _ => none

/-- The configuration bytes of READ DOMAIN (R184). -/
def Domain.configBytes (x : Domain) : List Byte :=
  halfBytes x.idleLimit ++ halfBytes x.deepLimit ++ halfBytes x.ackLimit ++
    [ (0 : BitVec 3) ++ ((0 : BitVec 1) ++ x.pinLevel.value) ++ x.pin.value ++ flag x.discardable, 0 ]

/-- The byte that carries a domain state alone (R171, R184). -/
def DomainState.byte (x : DomainState) : Byte :=
  (0 : BitVec 5) ++ x.value

/-- A LOWER level, or no meaning (R184). -/
def levelOf? (b : Byte) : Option Level :=
  if b = 0 then some .retain else if b = 1 then some .off else none

/-- What a CLEAR FAULT states (R28). -/
inductive Assumption where
  | active
  | lowRetain
  | lowOff
deriving DecidableEq, Repr

/-- A CLEAR FAULT assumption, or no meaning (R184). -/
def assumptionOf? (b : Byte) : Option Assumption :=
  if b = 0 then some .active else if b = 1 then some .lowRetain else if b = 2 then some .lowOff else none

/-- A mode argument, or no meaning (R185). -/
def modeOf? (b : Byte) : Option Mode :=
  if b = 0 then some .transparent else if b = 1 then some .governing else none

/-- Mode codes (R185). -/
def Mode.byte : Mode → Byte
  | .transparent => 0
  | .governing => 1

/-! ## Event records -/

/-- The 16 bytes of an event record (R186). -/
def Event.bytes (e : Event) : List Byte :=
  [ e.kind.value,
    (match e.domain with | some d => BitVec.ofNat 8 d.val | none => 0xFF),
    (match e.window with | some w => BitVec.ofNat 8 w.val | none => 0xFF),
    (match e.initiator with | some n => BitVec.ofNat 8 n.val | none => 0xFF),
    e.tag,
    e.code ]
  ++ halfBytes e.detail ++ wordBytes e.timestamp ++ wordBytes e.value

end Sys2Proof.Machine
end

