-- ==== Sys2Proof/Machine/Flags.lean ====
section
/-! DEFINITION. The conditions of the part: what is computed from State and held nowhere (timers due, room, strict-blocked,
eligibility, the candidates of both arbiters, acceptance, ALERT). -/

namespace Sys2Proof.Machine

/-! ## Timers -/

/-- Microseconds since the timer's load, modulo 2^32 (R153). -/
def Timer.elapsed (t : Timer) (now : Word) : Nat :=
  (now - t.load).toNat

/-- The timebase has advanced by the timer's length since its load (R8, R15, R19, R153). -/
def Timer.due (t : Timer) (now : Word) : Bool :=
  t.limit ≤ t.elapsed now

/-- The timer's remaining time in microseconds (R1). -/
def Timer.remaining (t : Timer) (now : Word) : Nat :=
  t.limit - t.elapsed now

/-- A timer that is running and due. -/
def timerDue (t : Option Timer) (now : Word) : Bool :=
  match t with
  | some t => t.due now
  | none => false

/-- What READ DOMAIN reports of a timer: 0 when it is not running, else its remaining time in whole units, rounded up
and at least 1 (R169). -/
def remainingUnits (unit : Nat) (t : Option Timer) (now : Word) : Nat :=
  match t with
  | some t => max 1 ((t.remaining now + (unit - 1)) / unit)
  | none => 0

/-- The conditions under which the idle timer runs (R8). -/
def idleRuns (mode : Mode) (x : Domain) : Bool :=
  mode == .governing && x.state == .active && x.idleLimit != 0 && x.pin != .holdOn

/-- The idle timer after a reload: full, or stopped (R8). -/
def idleLoaded (mode : Mode) (now : Word) (x : Domain) : Option Timer :=
  if idleRuns mode x then some ⟨now, x.idleLimit.toNat * Config.idleUnit⟩ else none

/-- The conditions under which the deep timer runs (R15). -/
def deepRuns (mode : Mode) (x : Domain) : Bool :=
  mode == .governing && x.state == .low && x.level == .retain && x.discardable && x.deepLimit != 0 && x.pin != .holdOn

/-- The deep timer after a load: full, or stopped (R15). -/
def deepLoaded (mode : Mode) (now : Word) (x : Domain) : Option Timer :=
  if deepRuns mode x then some ⟨now, x.deepLimit.toNat * Config.deepUnit⟩ else none

/-- The ack timer as loaded when a command is handed (R19). -/
def ackLoaded (now : Word) (x : Domain) : Option Timer :=
  some ⟨now, x.ackLimit.toNat⟩

/-- An entry's hold deadline has passed: the timebase has advanced by the captured hold limit since its arrival (R91). -/
def Entry.deadlineDue (e : Entry) (now : Word) : Bool :=
  match e.deadline with
  | some d => (d - e.arrival).toNat ≤ (now - e.arrival).toNat
  | none => false

/-! ## Entries and lists -/

/-- The entry at an index is in a state. -/
def State.entryIn (s : State) (i : EntryIdx) (x : EntryState) : Bool :=
  match s.entry i with
  | some e => e.state == x
  | none => false

/-- The entry's place in the order of acceptance. -/
def State.orderOf (s : State) (i : EntryIdx) : Nat :=
  match s.entry i with
  | some e => e.order
  | none => 0

/-- The oldest of some entries by arrival order. -/
def State.oldest (s : State) : List EntryIdx → Option EntryIdx
  | [] => none
  | i :: rest =>
    match s.oldest rest with
    | none => some i
    | some j => if s.orderOf j < s.orderOf i then some j else some i

/-- The free entry with the lowest index (R59). -/
def State.lowestFree (s : State) : Option EntryIdx :=
  allEntries.find? (fun i => (s.entry i).isNone)

/-- The number of HELD entries: the nine lengths together (R81). -/
def State.heldTotal (s : State) : Nat :=
  (allLists.map (fun l => (s.held l).length)).sum

/-- A hold slot is free (R80). -/
def State.holdSlotFree (s : State) : Bool :=
  s.heldTotal < Config.holdSlots

/-- The initiator's held count, leaving out `own` entries of its own, is below its quota (R80). -/
def State.quotaFree (s : State) (n : InitiatorId) (own : Nat) : Bool :=
  (s.init n).heldCount - own < (s.init n).quota

/-- Room exists for a request to be held (R80). -/
def State.room (s : State) (n : InitiatorId) (own : Nat) : Bool :=
  s.holdSlotFree && s.quotaFree n own

/-- The initiator is strict-blocked, leaving out `own` entries of its own (R85). -/
def State.strictBlocked (s : State) (n : InitiatorId) (own : Nat) : Bool :=
  (s.init n).strict && (s.init n).heldCount - own != 0

/-- The list is empty and the initiator is not strict-blocked (R44, R46). -/
def State.clear (s : State) (l : ListId) (n : InitiatorId) (own : Nat) : Bool :=
  (s.held l).isEmpty && !s.strictBlocked n own

/-- An entry is HELD or STALLED. -/
def Entry.inPool (e : Entry) : Bool :=
  e.state == .held || e.state == .stalled

/-- Some HELD or STALLED entry of the same initiator is older than `e` (R87 rule (b)). -/
def State.olderInPool (s : State) (e : Entry) : Bool :=
  allEntries.any (fun j =>
    match s.entry j with
    | some f => f.inPool && f.initiator == e.initiator && f.order < e.order
    | none => false)

/-- Rule (a) of R87: the list is OPEN, or its domain is ACTIVE or DRAINING. -/
def State.listOpen (s : State) : ListId → Bool
  | .openPath => true
  | .domain d => (s.dom d).state == .active || (s.dom d).state == .draining

/-- The head of a list, when it is eligible for issue (R87). -/
def State.eligibleHead (s : State) (l : ListId) : Option EntryIdx :=
  match s.held l with
  | [] => none
  | i :: _ =>
    match s.entry i with
    | some e =>
      if s.mode == .governing && s.listOpen l && !((s.init e.initiator).strict && s.olderInPool e) then some i else none
    | none => none

/-- The release group: the heads that are eligible at this moment (R61). -/
def State.releaseGroup (s : State) : List EntryIdx :=
  allLists.filterMap s.eligibleHead

/-- The release candidate: the oldest of the release group (R61). -/
def State.releaseCandidate (s : State) : Option EntryIdx :=
  s.oldest s.releaseGroup

/-- The entry the issue arbiter issues when the memory controller can take a request (R61, R62). -/
def State.issueChoice (s : State) : Option EntryIdx :=
  match s.stage, s.releaseCandidate with
  | some p, some r => (match s.issueTurn with | .pass => some p | .release => some r)
  | some p, none => some p
  | none, r => r

/-- The decline candidate: the oldest DECLINING entry (R67). -/
def State.declineCandidate (s : State) : Option EntryIdx :=
  s.oldest (allEntries.filter (fun i => s.entryIn i .declining))

/-- The entry whose response waits as forward candidate (R65). -/
def State.forwardCandidate (s : State) : Option EntryIdx :=
  match s.forward with
  | some r =>
    (match entryOf? r.tag with
     | some i => if s.entryIn i .issued then some i else none
     | none => none)
  | none => none

/-- The return arbiter's next send is of its forward candidate (R68). -/
def State.forwardsNext (s : State) : Bool :=
  s.forwardCandidate.isSome && (s.returnTurn == .forward || s.declineCandidate.isNone)

/-- The return arbiter's next send is of its decline candidate (R68). -/
def State.declinesNext (s : State) : Bool :=
  s.declineCandidate.isSome && (s.returnTurn == .decline || s.forwardCandidate.isNone)

/-- The upstream port accepts a presented request (R56). -/
def State.accepting (s : State) : Bool :=
  !s.inReset && !s.portReset && s.stage.isNone && s.lowestFree.isSome && s.stalled.isNone

/-! ## Decode -/

/-- The request's initiator and tag match another live entry that is not ORPHANED (R39). -/
def State.tagTaken (s : State) (r : Request) : Bool :=
  allEntries.any (fun j =>
    match s.entry j with
    | some f => f.state != .orphaned && f.initiator == r.initiator && f.tag == r.tag
    | none => false)

/-- The request's last byte is not in the granule of its first byte (R40). -/
def crossesGranule (r : Request) : Bool :=
  (r.address.toNat + requestBytes r.length - 1) / Config.granule != r.address.toNat / Config.granule

/-- The window is enabled and the address equals its base in every bit from 31 to 12 whose mask bit is clear (R36). -/
def Window.matches (w : Window) (address : Word) : Bool :=
  w.enable && (address.extractLsb' 12 20 ^^^ w.base) &&& ~~~w.mask == 0

/-- The enabled matching window with the lowest index (R36). -/
def State.windowFor (s : State) (address : Word) : Option WindowId :=
  allWindows.find? (fun w => (s.win w).matches address)

/-- The window's permission flag for a direction and a privilege (R41). -/
def Window.permission (w : Window) : Direction → Privilege → Bool
  | .read, .privileged => w.readPrivileged
  | .write, .privileged => w.writePrivileged
  | .read, .unprivileged => w.readUnprivileged
  | .write, .unprivileged => w.writeUnprivileged

/-- The access check of a window (R41). -/
def Window.permits (w : Window) (r : Request) : Bool :=
  w.permission r.direction r.privilege && w.initiatorMask.getLsbD r.initiator.val

/-- The hold list of requests through a window (R49). -/
def Window.listId (w : Window) : ListId :=
  match w.kind with
  | .memory => .domain w.domain
  | .steering => .openPath

/-- The write is four bytes at an address that is a multiple of 4 (R42, R130). -/
def isWordWrite (r : Request) : Bool :=
  r.direction == .write && requestBytes r.length == 4 && r.address.extractLsb' 0 2 == 0

/-! ## The power channel, the event queue and the management port -/

/-- The WAITING command of a domain: its place in the order of handing. -/
def State.waitingAt (s : State) (d : DomainId) : Option Nat :=
  match s.slot d with
  | .waiting _ n => some n
  | _ => none

/-- The earliest handed of the WAITING commands of some domains. -/
def State.earliest (s : State) : List DomainId → Option DomainId
  | [] => none
  | d :: rest =>
    match s.waitingAt d, s.earliest rest with
    | none, r => r
    | some _, none => some d
    | some n, some c => if (s.waitingAt c).getD 0 < n then some c else some d

/-- The domain whose command is presented to the memory controller: the earliest handed WAITING command (R116); none
while RESETN is active (R127). -/
def State.presentedCommand (s : State) : Option DomainId :=
  if s.inReset then none else s.earliest allDomains

/-- What the part drives on the command direction: a present line of 1 with the presented command's group, or none, a present
line of 0 (R188, R189). -/
def State.commandDriven (s : State) : Option CommandLines :=
  match s.presentedCommand with
  | some d => (match s.slot d with | .waiting c _ => some (commandLines d c) | _ => none)
  | none => none

/-- The slot is TAKEN: the command-taken flag (R128). -/
def Slot.isTaken : Slot → Bool
  | .taken _ => true
  | _ => false

/-- ALERT is asserted: a record is queued and the alert enable is set (R152); it is deasserted while RESETN is active. -/
def State.alert (s : State) : Bool :=
  !s.inReset && s.control.alertEnable && !s.events.isEmpty

/-- The recording mask's flag for a kind; OVERFLOW is always recorded (R140, R142). -/
def EventControl.records (c : EventControl) (k : EventKind) : Bool :=
  match k.maskBit with
  | some b => c.mask.getLsbD b
  | none => true

/-- The frame in progress may be executed as this command, `none` for a code that names no command: its code is still being
shifted in, or its argument bytes are (R156, R157). -/
def State.awaits (s : State) (c : Option Command) : Bool :=
  !s.inReset &&
    (match s.port.phase with
     | .command => true
     | .arguments a => c == some a
     | _ => false)

/-- Chip select may rise after these bits of the frame in progress: its command has not been executed, and in ARGUMENTS the
bits begin with the command's code (R156, R158). -/
def State.mayAbort (s : State) (bits : List Bool) : Bool :=
  s.awaits (commandOf? (firstByte bits)) && notYetExecuted bits && (s.port.phase == .command || 8 ≤ bits.length)

/-- The bytes the part shifts out in RESULT, first byte first: the result fixed at execution, and for POP EVENTS the
records at the head of the queue still to be shifted (R149, R157). -/
def State.resultBytes (s : State) : List Byte :=
  s.port.result ++ (s.events.take s.port.popLeft).flatMap Event.bytes

/-- The byte shifted out at a place of the RESULT phase: 0xFF past the last result byte (R157). -/
def State.shiftedByte (s : State) (n : Nat) : Byte :=
  s.resultBytes.getD n 0xFF

end Sys2Proof.Machine
end

