-- ==== Sys2Proof/Machine/Ops.lean ====
section
/-! DEFINITION. The operations the meanings share: recording events, in-flight counting, joining and leaving the hold pool,
declining, handing power commands, and the moves of the domain state machine. -/

namespace Sys2Proof.Machine

/-! ## When a step takes place -/

/-- A step of the link, the domain controller or the power channel: nothing happens while RESETN is active (R77, R79,
R127, R154). -/
def whileRunning (s t : State) : Host.Outcome State Fault Refusal :=
  .next (if s.inReset then s else t)

/-- A management command is executed in a frame that awaits it; bits shifted in at any other phase are ignored (R156). -/
def inFrame (c : Option Command) (s t : State) : Host.Outcome State Fault Refusal :=
  .next (if s.awaits c then t else s)

/-- The eighth bit of byte 0: COMMAND goes to ARGUMENTS where the command has arguments. One without is executed at that bit,
by its own row (R156, R157). -/
def takeCode (c : Command) (s : State) : State :=
  if c.arguments = 0 then s else { s with port := { s.port with phase := .arguments c } }

/-- The last bit of a command: it has been executed with this status and these result bytes, and the frame is in RESULT
(R156, R157). -/
def reply (status : Status) (bytes : List Byte) (s : State) : State :=
  { s with port := { s.port with phase := .result, result := status.value :: bytes, popLeft := 0 } }

/-! ## Recording events -/

/-- The OVERFLOW record that the first loss of a run leaves (R142). -/
def overflowRecord (lost : Event) : Event where
  kind := .overflow
  domain := none
  window := none
  initiator := none
  tag := 0
  code := 0
  detail := lost.kind.value.setWidth 16
  timestamp := lost.timestamp
  value := 1

/-- An OVERFLOW record with one more loss counted; the value stays at 2^32-1 (R142). -/
def countLoss (o : Event) : Event :=
  { o with value := if o.value = BitVec.allOnes 32 then o.value else o.value + 1 }

/-- The queue after a record whose kind is recorded is offered (R141). -/
def enqueue (q : List Event) (e : Event) : List Event :=
  if q.length < Config.ordinaryRecords then q ++ [e]
  else
    match q.getLast? with
    | some last =>
      if last.kind = .overflow then q.dropLast ++ [countLoss last]
      else if q.length = Config.ordinaryRecords then q ++ [overflowRecord e]
      else q
    | none => q

/-- A block offers a record: dropped by the recording mask, or taken by the queue (R140). -/
def offer (e : Event) (s : State) : State :=
  if s.control.records e.kind then { s with events := enqueue s.events e } else s

/-- A record of a kind, at this moment, every other field none or 0 (R139). -/
def record (s : State) (k : EventKind) : Event where
  kind := k
  domain := none
  window := none
  initiator := none
  tag := 0
  code := 0
  detail := 0
  timestamp := s.timebase
  value := 0

/-- The DECLINE record of an entry (R144). -/
def declineRecord (s : State) (e : Entry) (c : DeclineCode) : Event :=
  { record s .decline with
    domain := e.domain?
    window := e.window
    initiator := some e.initiator
    tag := e.tag
    code := c.value.setWidth 8
    detail := declineDetail e.direction e.length
    value := e.address }

/-! ## In-flight counting -/

/-- The entry becomes counted in the domain its list names, if it is not counted yet (R6, R70). -/
def countIn (i : EntryIdx) (s : State) : State :=
  match s.entry i with
  | some e =>
    (match e.domain? with
     | some d =>
       if e.counted then s
       else
         (s.setEntry i (some { e with counted := true })).setDom d
           { s.dom d with inFlight := (s.dom d).inFlight + 1 }
     | none => s)
  | none => s

/-- The entry is freed, and if it is counted its domain's in-flight count falls by one (R6, R66, R70, R75). -/
def freeEntry (i : EntryIdx) (s : State) : State :=
  match s.entry i with
  | some e =>
    (match e.domain? with
     | some d =>
       if e.counted then
         (s.setEntry i none).setDom d { s.dom d with inFlight := (s.dom d).inFlight - 1 }
       else s.setEntry i none
     | none => s.setEntry i none)
  | none => s

/-! ## The hold pool -/

/-- A place of the pool is taken: the hold budget and the initiator's held count rise by one (R78, R84). -/
def takePlace (n : InitiatorId) (s : State) : State :=
  { s.setInit n { s.init n with heldCount := (s.init n).heldCount + 1 } with holdBudget := s.holdBudget + 1 }

/-- A place of the pool is given up: the hold budget and the initiator's held count fall by one (R78, R84). -/
def givePlace (n : InitiatorId) (s : State) : State :=
  { s.setInit n { s.init n with heldCount := (s.init n).heldCount - 1 } with holdBudget := s.holdBudget - 1 }

/-- The entry leaves whatever hold list it is in; the others keep their order (R82). -/
def leaveLists (i : EntryIdx) (s : State) : State :=
  { s with
    domainLists := mapTable (fun l => l.filter (fun j => j != i)) s.domainLists
    openList := s.openList.filter (fun j => j != i) }

/-- The stall slot is freed, and no re-examination follows (R93, R95). -/
def leaveStall (s : State) : State :=
  { s with stalled := none, prompts := 0 }

/-- A freed slot or a fallen held count prompts a re-examination of the STALLED entry, if there is one (R96). -/
def prompt (s : State) : State :=
  if s.stalled.isSome then { s with prompts := s.prompts + 1 } else s

/-- The entry becomes DECLINING with a code; its write data is discarded, and a DECLINE record is offered if its
reporting flag is set (R67, R144). -/
def decline (i : EntryIdx) (c : DeclineCode) (s : State) : State :=
  match s.entry i with
  | some e =>
    let t := s.setEntry i (some { e with state := .declining, code := some c, data := [] })
    if e.reportDeclines then offer (declineRecord s e c) t else t
  | none => s

/-- A HELD entry is declined from wherever it stands in its list (R82, R91, R99). -/
def declineHeld (c : DeclineCode) (s : State) (i : EntryIdx) : State :=
  match s.entry i with
  | some e => decline i c (givePlace e.initiator (leaveLists i s))
  | none => leaveLists i s

/-- The STALLED entry is declined and the stall slot freed (R92, R95, R97). -/
def declineStalled (c : DeclineCode) (s : State) (i : EntryIdx) : State :=
  match s.entry i with
  | some e => decline i c (givePlace e.initiator (leaveStall s))
  | none => leaveStall s

/-- The entries of a domain's list that a mass decline selects, head first. -/
def selectedHeld (d : DomainId) (sel : Entry → Bool) (s : State) : List EntryIdx :=
  (s.held (.domain d)).filter (fun i => match s.entry i with | some e => sel e | none => true)

/-- The STALLED entry, when its list is the domain and the mass decline selects it. -/
def selectedStalled (d : DomainId) (sel : Entry → Bool) (s : State) : List EntryIdx :=
  match s.stalled with
  | some i =>
    (match s.entry i with
     | some e => if e.domain? = some d ∧ sel e = true then [i] else []
     | none => [])
  | none => []

/-- A mass decline: every selected entry of the domain's list, oldest first, and after them the STALLED entry where it is
selected, which is the youngest. Freed slots prompt a re-examination of a STALLED entry that remains (R99). -/
def massDecline (d : DomainId) (sel selStalled : Entry → Bool) (c : DeclineCode) (s : State) : State :=
  let held := selectedHeld d sel s
  let t := (selectedStalled d selStalled s).foldl (declineStalled c) (held.foldl (declineHeld c) s)
  if held.isEmpty then t else prompt t

/-- The number of entries a mass decline declines (R99). -/
def massDeclineCount (d : DomainId) (sel selStalled : Entry → Bool) (s : State) : Nat :=
  (selectedHeld d sel s).length + (selectedStalled d selStalled s).length

/-- The selection of every entry. -/
def everyEntry : Entry → Bool :=
  fun _ => true

/-- The selection of no entry. -/
def noEntry : Entry → Bool :=
  fun _ => false

/-- The selection of guarded reads (R102). -/
def guardedEntry : Entry → Bool :=
  fun e => e.guarded

/-- The decoder gives the domain of a passed or held entry its arrival notice; an OPEN-path entry gives none (R7). -/
def giveNotice (e : Entry) (wake : Bool) (s : State) : State :=
  match e.domain? with
  | some d => { s with notices := s.notices ++ [⟨d, e.monitored, wake⟩] }
  | none => s

/-- The entry becomes PASSING in the decode stage and is counted in its domain (R44, R60, R70). -/
def passEntry (i : EntryIdx) (e : Entry) (s : State) : State :=
  countIn i { s.setEntry i (some { e with state := .passing }) with stage := some i }

/-- The entry becomes HELD with a reason and joins the tail of its list (R81). -/
def joinList (i : EntryIdx) (e : Entry) (reason : HoldReason) (s : State) : State :=
  let t := s.setEntry i (some { e with state := .held, reason := some reason })
  match e.list with
  | some l => t.setHeld l (t.held l ++ [i])
  | none => t

/-! ## The power channel -/

/-- A command is handed to the domain's slot, which becomes WAITING (R115). -/
def handCommand (d : DomainId) (c : PowerCommand) (s : State) : State :=
  { s.setSlot d (.waiting c s.nextHanding) with nextHanding := s.nextHanding + 1 }

/-- LOWER is handed at a level and the domain enters ENTERING: the ack timer is loaded, the other timers stop and
wake-pending is cleared (R11, R15, R19, R115). A LOWER at OFF is handed only while discardable is set (R4). -/
def handLower (d : DomainId) (level : Level) (s : State) : State :=
  let x := s.dom d
  let target := if x.discardable then level else .retain
  handCommand d (.lower target)
    (s.setDom d
      { x with
        state := .entering
        level := target
        idleTimer := none
        deepTimer := none
        ackTimer := ackLoaded s.timebase x
        wakePending := false })

/-- RAISE is handed and the domain enters EXITING: the deep timer stops, wake start is recorded and the ack timer is
loaded (R13, R16, R19, R115). -/
def handRaise (d : DomainId) (s : State) : State :=
  let x := s.dom d
  handCommand d .raise
    (s.setDom d
      { x with
        state := .exiting
        idleTimer := none
        deepTimer := none
        ackTimer := ackLoaded s.timebase x
        wakePending := false
        wakeStart := s.timebase })

/-! ## The domain state machine -/

/-- The idle timer of a domain is reloaded, or stopped where it may not run (R8). -/
def reloadIdle (d : DomainId) (s : State) : State :=
  let x := s.dom d
  s.setDom d { x with idleTimer := idleLoaded s.mode s.timebase x }

/-- The deep timer of a domain is loaded, or stopped where it may not run (R15). -/
def loadDeep (d : DomainId) (s : State) : State :=
  let x := s.dom d
  s.setDom d { x with deepTimer := deepLoaded s.mode s.timebase x }

/-- The domain enters ACTIVE with its idle timer reloaded; a list that is not empty sets the issue arbiter's turn to
RELEASE (R8, R62, R88). -/
def enterActive (d : DomainId) (s : State) : State :=
  let x := s.dom d
  let t := reloadIdle d (s.setDom d { x with state := .active, deepTimer := none, ackTimer := none, wakePending := false })
  if (s.held (.domain d)).isEmpty then t else { t with issueTurn := .release }

/-- The target of a step-down: the pin level while the pin is HOLD_LOW (R9). -/
def drainTarget (x : Domain) (level : Level) : Level :=
  if x.pin = .holdLow then x.pinLevel else level

/-- The domain enters DRAINING with its target in the level field; the idle timer stops (R9). -/
def enterDraining (d : DomainId) (level : Level) (s : State) : State :=
  let x := s.dom d
  s.setDom d { x with state := .draining, level := drainTarget x level, idleTimer := none }

/-- The domain is DRAINING with its in-flight count and its held count both 0 (R11). -/
def State.drainComplete (s : State) (d : DomainId) : Bool :=
  (s.dom d).state == .draining && (s.dom d).inFlight == 0 && (s.held (.domain d)).isEmpty

/-- A drain whose two counts are 0 completes: LOWER is handed at the target (R11). -/
def completeDrain (d : DomainId) (s : State) : State :=
  if s.drainComplete d then handLower d (s.dom d).level s else s

/-- The domain's wake-pending flag is set (R12). -/
def setWakePending (d : DomainId) (s : State) : State :=
  s.setDom d { s.dom d with wakePending := true }

/-- A claim that asks for the domain to be up and that the pin does not turn away, taken by the domain's state: the RAISE
action (R26) and the steering RAISE (R135) outside FAULT. -/
def takeUp (d : DomainId) (s : State) : State :=
  match (s.dom d).state with
  | .active => reloadIdle d s
  | .draining => enterActive d s
  | .entering => setWakePending d s
  | .low => handRaise d s
  | .exiting => s
  | .fault => s

/-! ## Steering words -/

/-- A STEERING_IGNORED record (R138). -/
def ignoredRecord (s : State) (d : Option DomainId) (w : WindowId) (n : InitiatorId) (tag : Byte) (value : Word)
    (cause : BitVec 16) : Event :=
  { record s .steeringIgnored with
    domain := d
    window := some w
    initiator := some n
    tag := tag
    detail := cause
    value := value }

/-- The steering decoder takes a word: its claims are made, or it is ignored whole (R131, R132, R133). -/
def takeSteeringWord (w : WindowId) (r : Request) (s : State) : State :=
  let value := steeringValue r.lanes
  let make (a : SteeringAction) : List Claim :=
    (steeringDomains value).map (fun d => ⟨a, d, w, r.initiator, r.tag, value⟩)
  match (value.extractLsb' 0 2).toNat with
  | 0 => s
  | 1 => { s with claims := s.claims ++ make .keep }
  | 2 =>
    if (s.win w).raisePermitted then { s with claims := s.claims ++ make .raise }
    else offer (ignoredRecord s none w r.initiator r.tag value 2) s
  | _ => offer (ignoredRecord s none w r.initiator r.tag value 1) s

end Sys2Proof.Machine
end

