-- ==== Sys2Proof/Machine/Decoder.lean ====
section
/-! DEFINITION. The request decoder: the decode sequence in both modes, what decode captures, and ACCEPTANCE and
RE_EXAMINATION (02_the_window_table_and_decode, 03 section 3.1, 04 section 4.6). -/

namespace Sys2Proof.Machine

/-- What the domain-state step or the OPEN path decides (R44, R46). -/
inductive Decision where
  | pass
  | hold (reason : HoldReason)
  | decline (code : DeclineCode)
deriving DecidableEq, Repr

/-- What a decode captures (R49) and decides (R38). -/
structure Decoded where
  window : Option WindowId
  list : Option ListId
  guarded : Bool
  monitored : Bool
  wakePermitted : Bool
  policy : Policy
  report : Bool
  deadline : Option Word
  decision : Decision
  /-- The steering window the request is read through as a steering word, if it is (R42, R130). -/
  word : Option WindowId
deriving DecidableEq, Repr

/-- Pass when clear, else hold with reason ORDER (R44, R46). -/
def orderDecision (clear : Bool) : Decision :=
  if clear then .pass else .hold .order

/-- The domain-state step (R44). `own` entries of the initiator are left out of its held count (R85). -/
def domainStep (s : State) (d : DomainId) (wakePermitted : Bool) (n : InitiatorId) (own : Nat) : Decision :=
  let x := s.dom d
  match x.state with
  | .active => orderDecision (s.clear (.domain d) n own)
  | .draining => if x.pin = .holdLow then .decline .asleep else orderDecision (s.clear (.domain d) n own)
  | .entering => if wakePermitted = true ∧ x.pin ≠ .holdLow then .hold .wake else .decline .asleep
  | .low => if wakePermitted = true ∧ x.pin ≠ .holdLow then .hold .wake else .decline .asleep
  | .exiting => .hold .wake
  | .fault => .decline .domainFault

/-- The OPEN path (R46). -/
def openStep (s : State) (n : InitiatorId) (own : Nat) : Decision :=
  orderDecision (s.clear .openPath n own)

/-- A request declined before its window's terms are captured: window and list where one has been matched, and the
reporting flag (R49). -/
def declinedAs (window : Option WindowId) (list : Option ListId) (report : Bool) (c : DeclineCode) : Decoded where
  window := window
  list := list
  guarded := false
  monitored := false
  wakePermitted := false
  policy := .decline
  report := report
  deadline := none
  decision := .decline c
  word := none

/-- The hold deadline a window gives a request accepted now (R49). -/
def deadlineFor (s : State) (w : Window) : Option Word :=
  if w.holdLimit = 0 then none else some (s.timebase + w.holdLimit.setWidth 32)

/-- The decode of a request through a window that permits it: the steering-window, guard and domain-state steps
(R42, R43, R44, R46). -/
def decodeThrough (s : State) (r : Request) (i : WindowId) : Decoded :=
  let w := s.win i
  match w.kind with
  | .steering =>
    { window := some i
      list := some .openPath
      guarded := false
      monitored := false
      wakePermitted := false
      policy := w.policy
      report := w.reportDeclines
      deadline := deadlineFor s w
      decision := openStep s r.initiator 0
      word := if isWordWrite r then some i else none }
  | .memory =>
    if w.guarded = true ∧ r.direction = .read ∧ (s.dom w.domain).contentsValid = false then
      declinedAs (some i) (some (.domain w.domain)) w.reportDeclines .contentLost
    else
      { window := some i
        list := some (.domain w.domain)
        guarded := w.guarded && r.direction == .read
        monitored := w.monitored
        wakePermitted := w.wakePermitted
        policy := w.policy
        report := w.reportDeclines
        deadline := deadlineFor s w
        decision := domainStep s w.domain w.wakePermitted r.initiator 0
        word := none }

/-- The decode of a request to unmanaged space (R37, R46). -/
def decodeUnmanaged (s : State) (r : Request) : Decoded where
  window := none
  list := some .openPath
  guarded := false
  monitored := false
  wakePermitted := false
  policy := s.control.openPolicy
  report := s.control.globalReport
  deadline := none
  decision := openStep s r.initiator 0
  word := none

/-- The decode sequence of GOVERNING mode (R38). -/
def decodeGoverning (s : State) (r : Request) : Decoded :=
  if s.tagTaken r then declinedAs none none s.control.globalReport .tagReuse
  else if crossesGranule r then declinedAs none none s.control.globalReport .boundary
  else
    match s.windowFor r.address with
    | none => decodeUnmanaged s r
    | some i =>
      if (s.win i).permits r then decodeThrough s r i
      else declinedAs (some i) (some (s.win i).listId) (s.win i).reportDeclines .denied

/-- The domain a request is counted against in TRANSPARENT mode (R51). -/
def countingList (s : State) (r : Request) : Option ListId :=
  match s.windowFor r.address with
  | none => none
  | some i =>
    match (s.win i).kind with
    | .memory => some (.domain (s.win i).domain)
    | .steering => none

/-- Decode in TRANSPARENT mode: the tag check and the counting match (R51). -/
def decodeTransparent (s : State) (r : Request) : Decoded :=
  if s.tagTaken r then declinedAs none none s.control.globalReport .tagReuse
  else
    { window := none
      list := countingList s r
      guarded := false
      monitored := false
      wakePermitted := false
      policy := .decline
      report := false
      deadline := none
      decision := .pass
      word := none }

/-- The decode of an accepted request, by the mode in force (R56, R72). -/
def decodeRequest (s : State) (r : Request) : Decoded :=
  match s.mode with
  | .governing => decodeGoverning s r
  | .transparent => decodeTransparent s r

/-- The entry acceptance makes of a request (R57, R59): the next place in the order of acceptance, the timebase value as
arrival time, and what decode captured. Its state is set by the outcome. -/
def newEntry (s : State) (r : Request) (x : Decoded) : Entry where
  state := .passing
  initiator := r.initiator
  tag := r.tag
  direction := r.direction
  privilege := r.privilege
  address := r.address
  length := requestBytes r.length
  data := requestData r
  order := s.nextOrder
  arrival := s.timebase
  window := x.window
  list := x.list
  counted := false
  guarded := x.guarded
  monitored := x.monitored
  wakePermitted := x.wakePermitted
  policy := x.policy
  reportDeclines := x.report
  deadline := x.deadline
  reason := none
  code := none

/-- Which room test failed: 1 BUDGET, 2 QUOTA, 3 BOTH (R146, R186). -/
def roomFailure (s : State) (n : InitiatorId) : BitVec 16 :=
  match s.holdSlotFree, s.quotaFree n 0 with
  | false, true => 1
  | true, false => 2
  | false, false => 3
  | true, true => 0

/-- The STALL_BEGIN record (R146). -/
def stallRecord (s : State) (e : Entry) : Event :=
  { record s .stallBegin with
    domain := e.domain?
    window := e.window
    initiator := some e.initiator
    tag := e.tag
    detail := roomFailure s e.initiator
    value := e.address }

/-- The entry becomes STALLED: it takes the stall slot and a place of the pool, joins no list and gives no notice (R94). -/
def stallEntry (i : EntryIdx) (e : Entry) (s : State) : State :=
  let t := takePlace e.initiator (s.setEntry i (some { e with state := .stalled }))
  offer (stallRecord s e) { t with stalled := some i, prompts := 0 }

/-- A request that must be held, at decode: it is held where room exists, and otherwise meets its exhaustion policy
(R47, R80, R81, R94). -/
def holdNew (i : EntryIdx) (e : Entry) (reason : HoldReason) (s : State) : State :=
  if s.room e.initiator 0 then
    giveNotice e (reason == .wake) (takePlace e.initiator (joinList i e reason s))
  else
    match e.policy with
    | .decline => decline i .poolFull (s.setEntry i (some e))
    | .stall => stallEntry i e s

/-- The outcome of a decode (R38): pass, hold or stall, or decline. A pass gives its notice in GOVERNING mode (R7). -/
def placeNew (i : EntryIdx) (e : Entry) (d : Decision) (s : State) : State :=
  match d with
  | .pass =>
    let t := passEntry i e s
    if s.mode = .governing then giveNotice e false t else t
  | .hold reason => holdNew i e reason s
  | .decline c => decline i c (s.setEntry i (some e))

/-- Acceptance of a request under a free index: allocation, decode and outcome are one event (R56, R59). -/
def acceptAt (i : EntryIdx) (r : Request) (s : State) : State :=
  let x := decodeRequest s r
  let t := { s with nextOrder := s.nextOrder + 1 }
  let u :=
    match x.word with
    | some w => takeSteeringWord w r t
    | none => t
  placeNew i (newEntry s r x) x.decision u

/-- ACCEPTANCE (R56). Where a condition does not hold the port withholds acceptance, and the request stays with the
interconnect. -/
def execAcceptance (r : Request) (s : State) : Host.Outcome State Fault Refusal :=
  whileRunning s
    (if s.accepting then
      (match s.lowestFree with
       | some i => acceptAt i r s
       | none => s)
     else s)

/-- What a re-examination decides, by the entry's captured list and wake permission (R97). -/
def reExamined (s : State) (e : Entry) : Decision :=
  match e.list with
  | some (.domain d) => domainStep s d e.wakePermitted e.initiator 1
  | _ => openStep s e.initiator 1

/-- The STALLED entry is decided again (R97). -/
def reExamine (i : EntryIdx) (e : Entry) (s : State) : State :=
  match reExamined s e with
  | .pass => giveNotice e false (passEntry i e (givePlace e.initiator (leaveStall s)))
  | .hold reason =>
    if s.room e.initiator 1 then giveNotice e (reason == .wake) (joinList i e reason (leaveStall s))
    else { s with prompts := s.prompts - 1 }
  | .decline c => declineStalled c s i

/-- RE_EXAMINATION (R96, R97): taken only when it has been prompted. -/
def execReExamination (s : State) : Host.Outcome State Fault Refusal :=
  whileRunning s
    (match s.stalled with
     | some i =>
       (match s.entry i with
        | some e => if 0 < s.prompts then reExamine i e s else s
        | none => s)
     | none => s)

end Sys2Proof.Machine
end

