-- ==== Sys2Proof/Machine/DomainCommands.lean ====
section
/-! DEFINITION. The management commands on domains: READ DOMAIN, WRITE DOMAIN and the five domain actions (01 sections 1.4
and 1.5, 08 section 8.6, 09 R184). -/

namespace Sys2Proof.Machine

/-! ## READ DOMAIN -/

/-- Byte 8 of READ DOMAIN (R184). -/
def domainFlags (s : State) (d : DomainId) : Byte :=
  let x := s.dom d
  (0 : BitVec 1) ++ flag (s.slot d).isTaken ++ flag x.wakePending ++ flag x.contentsValid ++ x.level.value ++ x.state.value

/-- The 16 result bytes of READ DOMAIN (R169, R184). -/
def domainBytes (s : State) (d : DomainId) : List Byte :=
  let x := s.dom d
  x.configBytes
  ++ [domainFlags s d, BitVec.ofNat 8 x.inFlight, BitVec.ofNat 8 (s.held (.domain d)).length, 0]
  ++ halfBytes (BitVec.ofNat 16 (remainingUnits Config.idleUnit x.idleTimer s.timebase))
  ++ halfBytes (BitVec.ofNat 16 (remainingUnits Config.deepUnit x.deepTimer s.timebase))

/-- READ_DOMAIN (R169). -/
def execReadDomain (b : Byte) (s : State) : Host.Outcome State Fault Refusal :=
  inFrame (some .readDomain) s
    (match domainOf? b with
     | some d => reply .ok (domainBytes s d) s
     | none => reply .badIndex [] s)

/-! ## WRITE DOMAIN -/

/-- The six fields are stored (R24). -/
def storeConfig (d : DomainId) (c : DomainConfig) (s : State) : State :=
  s.setDom d
    { s.dom d with
      idleLimit := c.idleLimit
      deepLimit := c.deepLimit
      ackLimit := c.ackLimit
      discardable := c.discardable
      pin := c.pin
      pinLevel := c.pinLevel }

/-- The stored limits act: the idle timer in ACTIVE, the deep timer in LOW at RETAIN, and a target of OFF that is no longer
permitted (R4, R24). -/
def applyLimits (d : DomainId) (s : State) : State :=
  let x := s.dom d
  match x.state with
  | .active => reloadIdle d s
  | .low => if x.level = .retain then loadDeep d s else s
  | .draining =>
    if x.level = .off ∧ x.discardable = false then s.setDom d { x with level := .retain } else s
  | _ => s

/-- The stored pin acts by the domain's state (R22, R23). -/
def applyPin (d : DomainId) (s : State) : State :=
  let x := s.dom d
  match x.pin with
  | .none => s
  | .holdOn =>
    (match x.state with
     | .draining => enterActive d s
     | .entering => setWakePending d s
     | .low => handRaise d s
     | _ => s)
  | .holdLow =>
    (match x.state with
     | .active => enterDraining d x.pinLevel s
     | .draining => s.setDom d { x with level := x.pinLevel }
     | .low => if x.level = .retain ∧ x.pinLevel = .off then handLower d .off s else s
     | _ => s)

/-- HOLD_LOW is not stored while the domain is ENTERING, EXITING or FAULT (R23). -/
def pinRefused (x : Domain) (c : DomainConfig) : Bool :=
  c.pin == .holdLow && (x.state == .entering || x.state == .exiting || x.state == .fault)

/-- The domain controller takes a WRITE DOMAIN: the limits act first and the pin second; in TRANSPARENT mode the write is
only stored (R24, R31). -/
def takeConfig (d : DomainId) (c : DomainConfig) (s : State) : State :=
  let t := storeConfig d c s
  if s.mode = .governing then applyPin d (applyLimits d t) else t

/-- WRITE_DOMAIN (R24, R170). -/
def execWriteDomain (b : Byte) (r : Vector Byte 8) (s : State) : Host.Outcome State Fault Refusal :=
  inFrame (some .writeDomain) s
    (match domainOf? b with
     | some d =>
       (match configOf? r with
        | some c =>
          if pinRefused (s.dom d) c then reply .busy [] s
          else reply .ok [] (takeConfig d c s)
        | none => reply .badValue [] s)
     | none => reply .badIndex [] s)

/-! ## Domain actions -/

/-- The two result bytes of an action taken with OK: the domain's state after it, and a count (R171, R184). -/
def actionReply (d : DomainId) (count : Nat) (s : State) : State :=
  reply .ok [(s.dom d).state.byte, BitVec.ofNat 8 count] s

/-- A DOMAIN ACTION frame that is refused (R25, R162). -/
def actionRefused (status : Status) (s : State) : State :=
  reply status [] s

/-- The RAISE action (R26): refused in FAULT, and under HOLD_LOW in DRAINING, ENTERING and LOW (R21). In EXITING it has
no effect beyond OK (R17), under HOLD_LOW too (log 13). -/
def takeRaise (d : DomainId) (s : State) : State :=
  let x := s.dom d
  match x.state with
  | .fault => actionRefused .busy s
  | .active => actionReply d 0 (takeUp d s)
  | .exiting => actionReply d 0 (takeUp d s)
  | _ => if x.pin = .holdLow then actionRefused .busy s else actionReply d 0 (takeUp d s)

/-- RAISE_ACTION (R25, R26): an action byte that names no action is BAD_VALUE. -/
def execRaiseAction (b action _argument : Byte) (s : State) : Host.Outcome State Fault Refusal :=
  inFrame (some .domainAction) s
    (match domainOf? b with
     | some d =>
       if isOtherAction action then s
       else if action ≠ 1 then actionRefused .badValue s
       else if s.mode = .transparent then actionRefused .busy s
       else takeRaise d s
     | none => if isOtherAction action then s else actionRefused .badIndex s)

/-- The action's level differs from the pin level of a HOLD_LOW pin (R27). -/
def mismatch (x : Domain) (level : Level) : Bool :=
  x.pin == .holdLow && x.pinLevel != level

/-- OFF is asked for and not permitted (R4, R27). -/
def offRefused (x : Domain) (level : Level) : Bool :=
  level == .off && !x.discardable

/-- The LOWER action (R27). A drain it starts completes at once when both counts are 0 (R11, R171). -/
def takeLower (d : DomainId) (level : Level) (s : State) : State :=
  let x := s.dom d
  match x.state with
  | .active =>
    if x.pin = .holdOn ∨ mismatch x level = true then actionRefused .busy s
    else if offRefused x level then actionRefused .badValue s
    else actionReply d 0 (completeDrain d (enterDraining d level s))
  | .draining =>
    if mismatch x level then actionRefused .busy s
    else if offRefused x level then actionRefused .badValue s
    else actionReply d 0 (s.setDom d { x with level := level })
  | .low =>
    (match x.level, level with
     | .retain, .retain => if mismatch x level then actionRefused .busy s else actionReply d 0 s
     | .retain, .off =>
       if x.pin = .holdOn ∨ mismatch x level = true then actionRefused .busy s
       else if offRefused x level then actionRefused .badValue s
       else actionReply d 0 (handLower d .off s)
     | .off, .off => if mismatch x level then actionRefused .busy s else actionReply d 0 s
     | .off, .retain => actionRefused .busy s)
  | .entering => actionRefused .busy s
  | .exiting => actionRefused .busy s
  | .fault => actionRefused .busy s

/-- LOWER_ACTION (R25, R27). -/
def execLowerAction (b level : Byte) (s : State) : Host.Outcome State Fault Refusal :=
  inFrame (some .domainAction) s
    (match domainOf? b with
     | some d =>
       (match levelOf? level with
        | some l => if s.mode = .transparent then actionRefused .busy s else takeLower d l s
        | none => actionRefused .badValue s)
     | none => actionRefused .badIndex s)

/-- The domain after CLEAR FAULT with an assumption (R28). -/
def takeAssumption (d : DomainId) (a : Assumption) (s : State) : State :=
  let x := s.dom d
  match a with
  | .active => enterActive d s
  | .lowRetain => loadDeep d (s.setDom d { x with state := .low, level := .retain, wakePending := false })
  | .lowOff => s.setDom d { x with state := .low, level := .off, contentsValid := false, wakePending := false }

/-- CLEAR_FAULT (R25, R28). -/
def execClearFault (b assumption : Byte) (s : State) : Host.Outcome State Fault Refusal :=
  inFrame (some .domainAction) s
    (match domainOf? b with
     | some d =>
       (match assumptionOf? assumption with
        | some a =>
          if s.mode = .transparent then actionRefused .busy s
          else if (s.dom d).state = .fault then actionReply d 0 (takeAssumption d a s)
          else actionRefused .busy s
        | none => actionRefused .badValue s)
     | none => actionRefused .badIndex s)

/-- VALIDATE (R29): in every state and in both modes. -/
def execValidate (b _argument : Byte) (s : State) : Host.Outcome State Fault Refusal :=
  inFrame (some .domainAction) s
    (match domainOf? b with
     | some d => actionReply d 0 (s.setDom d { s.dom d with contentsValid := true })
     | none => actionRefused .badIndex s)

/-- The FLUSH action (R30, R103): the held traffic is declined FLUSHED, and a drain whose counts are then both 0 completes, its
LOWER sent at once. The count is of the entries declined (R171). -/
def takeFlush (d : DomainId) (s : State) : State :=
  actionReply d (massDeclineCount d everyEntry everyEntry s)
    (completeDrain d (massDecline d everyEntry everyEntry .flushed s))

/-- FLUSH (R30, R103): in every state and in both modes. -/
def execFlush (b _argument : Byte) (s : State) : Host.Outcome State Fault Refusal :=
  inFrame (some .domainAction) s
    (match domainOf? b with
     | some d => takeFlush d s
     | none => actionRefused .badIndex s)

end Sys2Proof.Machine
end

