-- ==== Sys2Proof/Machine/Link.lean ====
section
/-! DEFINITION. The request link after decode: ISSUE, DOWNSTREAM_RESPONSE, FORWARDING, DECLINE_SEND, and the expiry of hold
deadlines (03_transactions_on_the_request_link, 04 section 4.5). -/

namespace Sys2Proof.Machine

/-- The entry is presented downstream and becomes ISSUED; it is counted if it was not (R63). -/
def issueEntry (i : EntryIdx) (e : Entry) (s : State) : State :=
  let t := countIn i (s.setEntry i (some { e with state := .issued, data := [] }))
  { t with sent := { t.sent with downstream := t.sent.downstream ++ [downRequest i e] } }

/-- An issue of the pass candidate: the decode stage becomes empty, and the next turn is RELEASE (R62, R63). -/
def issuePassing (i : EntryIdx) (e : Entry) (s : State) : State :=
  { issueEntry i e s with stage := none, issueTurn := .release }

/-- An issue of the release candidate: it leaves its list, its slot and quota place are freed, and the next turn is PASS
(R62, R63, R82, R96). -/
def issueHeld (i : EntryIdx) (e : Entry) (s : State) : State :=
  prompt { issueEntry i e (givePlace e.initiator (leaveLists i s)) with issueTurn := .pass }

/-- ISSUE (R61 to R63): with no candidate nothing is issued. -/
def execIssue (s : State) : Host.Outcome State Fault Refusal :=
  whileRunning s
    (match s.issueChoice with
     | some i =>
       (match s.entry i with
        | some e => if s.stage = some i then issuePassing i e s else issueHeld i e s
        | none => s)
     | none => s)

/-- A stray response is dropped and STRAY_RESPONSE is recorded (R69, R146). -/
def strayResponse (r : MemResponse) (s : State) : State :=
  let detail : BitVec 16 :=
    match entryOf? r.tag with
    | some i => strayDetail (s.entry i)
    | none => 15
  offer { record s .strayResponse with tag := r.tag, code := r.code.setWidth 8, detail := detail } s

/-- A presented response is matched by its tag (R65). -/
def matchResponse (r : MemResponse) (s : State) : State :=
  match entryOf? r.tag with
  | some i =>
    if s.entryIn i .issued then { s with forward := some r }
    else if s.entryIn i .orphaned then freeEntry i s
    else strayResponse r s
  | none => strayResponse r s

/-- DOWNSTREAM_RESPONSE (R65). While a response waits as forward candidate, acceptance of the next is withheld. -/
def execDownstreamResponse (r : MemResponse) (s : State) : Host.Outcome State Fault Refusal :=
  whileRunning s (match s.forward with | some _ => s | none => matchResponse r s)

/-- Forwarding of a memory response for an entry (R66, R68). -/
def forwardEntry (i : EntryIdx) (e : Entry) (r : MemResponse) (s : State) : State :=
  let t := freeEntry i s
  { t with
    forward := none
    returnTurn := .decline
    sent := { t.sent with upstream := t.sent.upstream ++ [forwardedResponse e r] } }

/-- FORWARDING (R66): taken when the return arbiter's next send is of its forward candidate (R68). -/
def execForwarding (s : State) : Host.Outcome State Fault Refusal :=
  whileRunning s
    (if s.forwardsNext then
      (match s.forwardCandidate, s.forward with
       | some i, some r =>
         (match s.entry i with
          | some e => forwardEntry i e r s
          | none => s)
       | _, _ => s)
     else s)

/-- The decline of an entry is sent upstream and the entry freed (R67, R68). -/
def sendDecline (i : EntryIdx) (e : Entry) (c : DeclineCode) (s : State) : State :=
  let t := freeEntry i s
  { t with
    returnTurn := .forward
    sent := { t.sent with upstream := t.sent.upstream ++ [declineResponse e c] } }

/-- DECLINE_SEND (R67): taken when the return arbiter's next send is of its decline candidate (R68). -/
def execDeclineSend (s : State) : Host.Outcome State Fault Refusal :=
  whileRunning s
    (if s.declinesNext then
      (match s.declineCandidate with
       | some i =>
         (match s.entry i with
          | some e => (match e.code with | some c => sendDecline i e c s | none => s)
          | none => s)
       | none => s)
     else s)

/-- HOLD_DEADLINE_EXPIRY (R91): the HELD entry at the index, once its deadline has passed. -/
def execHoldDeadlineExpiry (i : EntryIdx) (s : State) : Host.Outcome State Fault Refusal :=
  whileRunning s
    (match s.entry i with
     | some e =>
       if e.state = .held ∧ e.deadlineDue s.timebase = true then prompt (declineHeld .holdTimeout s i) else s
     | none => s)

/-- STALL_DEADLINE_EXPIRY (R92): the STALLED entry, once its deadline has passed. -/
def execStallDeadlineExpiry (s : State) : Host.Outcome State Fault Refusal :=
  whileRunning s
    (match s.stalled with
     | some i =>
       (match s.entry i with
        | some e => if e.deadlineDue s.timebase then declineStalled .holdTimeout s i else s
        | none => s)
     | none => s)

end Sys2Proof.Machine
end

