-- ==== Sys2Proof/Machine/Management.lean ====
section
/-! DEFINITION. The management commands that read and write tables, modes, windows, initiators and recording controls, and
the events of a frame (08_the_management_port, 09 sections 9.4 to 9.6). -/

namespace Sys2Proof.Machine

/-! ## Frames -/

/-- CHIP_SELECT_FALLING (R156): IDLE goes to COMMAND, or to IGNORING while RESETN is active. -/
def execChipSelectFalling (s : State) : Host.Outcome State Fault Refusal :=
  .next
    (if s.port.phase = .idle then
      { s with port := { s.port with phase := if s.inReset then .ignoring else .command, result := [], popLeft := 0 } }
     else s)

/-- FRAME_ABORT (R158): chip select rises before a command is executed. The command is discarded and last-frame-aborted
set; with no bit shifted in the frame has no effect. -/
def execFrameAbort (bits : List Bool) (s : State) : Host.Outcome State Fault Refusal :=
  .next
    (if s.mayAbort bits then
      { s with port := { s.port with phase := .idle, aborted := s.port.aborted || !bits.isEmpty } }
     else s)

/-- FRAME_END (R159): chip select rises in RESULT; bytes not shifted out are lost. -/
def execFrameEnd (s : State) : Host.Outcome State Fault Refusal :=
  .next
    (if s.port.phase = .result then { s with port := { s.port with phase := .idle, result := [], popLeft := 0 } } else s)

/-- IGNORING_END (R156): chip select rises while the port is IGNORING. -/
def execIgnoringEnd (s : State) : Host.Outcome State Fault Refusal :=
  .next (if s.port.phase = .ignoring then { s with port := { s.port with phase := .idle } } else s)

/-- BAD_COMMAND (R156, R160): the eighth bit of byte 0. A code that names no command is executed at it with BAD_COMMAND; a
code whose command has arguments takes the port to ARGUMENTS, where the rows of that command find it (log 8). -/
def execBadCommand (code : Byte) (s : State) : Host.Outcome State Fault Refusal :=
  inFrame none s
    (match commandOf? code with
     | some c => takeCode c s
     | none => reply .badCommand [] s)

/-! ## Status and mode -/

/-- The state nibble of a domain in READ STATUS (R185). -/
def stateNibble (s : State) (d : DomainId) : BitVec 4 :=
  (0 : BitVec 1) ++ (s.dom d).state.value

/-- Byte 3 of READ STATUS: stalled, last frame aborted, alert enable, global decline report and open-space policy (R185). -/
def statusFlags (s : State) : Byte :=
  (0 : BitVec 2) ++ (match s.control.openPolicy with | .decline => (0 : BitVec 2) | .stall => 1)
    ++ flag s.control.globalReport ++ flag s.control.alertEnable ++ flag s.port.aborted ++ flag s.stalled.isSome

/-- The 14 result bytes of READ STATUS (R167, R185). -/
def statusBytes (s : State) : List Byte :=
  [s.mode.byte, BitVec.ofNat 8 s.events.length, BitVec.ofNat 8 s.holdBudget, statusFlags s]
  ++ wordBytes s.timebase
  ++ [stateNibble s 7 ++ stateNibble s 6, stateNibble s 5 ++ stateNibble s 4,
      stateNibble s 3 ++ stateNibble s 2, stateNibble s 1 ++ stateNibble s 0]
  ++ halfBytes s.control.mask

/-- READ_STATUS (R167): the flag last-frame-aborted is reported and cleared. -/
def execReadStatus (s : State) : Host.Outcome State Fault Refusal :=
  inFrame (some .readStatus) s (let t := reply .ok (statusBytes s) s; { t with port := { t.port with aborted := false } })

/-- The switch to GOVERNING: every domain is told to take it (R164). -/
def switchToGoverning (s : State) : State :=
  { s with mode := .governing, switches := allDomains }

/-- Every domain is ACTIVE with contents-valid set and the hold budget is 0 (R165). -/
def State.mayGoTransparent (s : State) : Bool :=
  allDomains.all (fun d => (s.dom d).state == .active && (s.dom d).contentsValid) && s.holdBudget == 0

/-- The switch to TRANSPARENT: every idle timer stops (R32, R165). -/
def switchToTransparent (s : State) : State :=
  { s with
    mode := .transparent
    switches := []
    domains := mapTable (fun x => { x with idleTimer := none }) s.domains }

/-- SET_MODE taken by mode control (R163 to R165). -/
def takeMode (m : Mode) (s : State) : State :=
  if s.mode = m then reply .ok [m.byte] s
  else
    match m with
    | .governing => reply .ok [m.byte] (switchToGoverning s)
    | .transparent =>
      if s.mayGoTransparent then reply .ok [m.byte] (switchToTransparent s)
      else reply .busy [] s

/-- SET_MODE (R163): a value that names neither mode is BAD_VALUE. -/
def execSetMode (b : Byte) (s : State) : Host.Outcome State Fault Refusal :=
  inFrame (some .setMode) s
    (match modeOf? b with
     | some m => takeMode m s
     | none => reply .badValue [] s)

/-! ## Windows -/

/-- READ_WINDOW (R168). -/
def execReadWindow (b : Byte) (s : State) : Host.Outcome State Fault Refusal :=
  inFrame (some .readWindow) s
    (match windowOf? b with
     | some w => reply .ok (s.win w).bytes s
     | none => reply .badIndex [] s)

/-- WRITE_WINDOW (R35, R168): all or nothing. -/
def execWriteWindow (b : Byte) (r : Vector Byte 12) (s : State) : Host.Outcome State Fault Refusal :=
  inFrame (some .writeWindow) s
    (match windowOf? b with
     | some w =>
       (match windowOfRecord? r with
        | some x => reply .ok [] (s.setWin w x)
        | none => reply .badValue [] s)
     | none => reply .badIndex [] s)

/-! ## Hold lists and initiators -/

/-- The age of an entry, saturating at the largest value the summary holds (R106, R184). -/
def ageOf (s : State) (e : Entry) : BitVec 24 :=
  BitVec.ofNat 24 (min (s.timebase - e.arrival).toNat Config.maxAge)

/-- The 12-byte summary of a held entry (R106, R184). -/
def summaryBytes (s : State) (e : Entry) : List Byte :=
  [ BitVec.ofNat 8 e.initiator.val,
    e.tag,
    (0 : BitVec 5) ++ flag (e.reason == some .order) ++ e.privilege.bit ++ e.direction.bit,
    BitVec.ofNat 8 e.length ]
  ++ wordBytes e.address
  ++ [ (ageOf s e).extractLsb' 16 8, (ageOf s e).extractLsb' 8 8, (ageOf s e).extractLsb' 0 8, 0 ]

/-- The result of LIST HELD: the count, then one summary for each entry from head to tail (R106, R172). -/
def listBytes (s : State) (l : ListId) : List Byte :=
  BitVec.ofNat 8 (s.held l).length :: ((s.held l).filterMap s.entry).flatMap (summaryBytes s)

/-- LIST_HELD (R106, R172). -/
def execListHeld (b : Byte) (s : State) : Host.Outcome State Fault Refusal :=
  inFrame (some .listHeld) s
    (match listOf? b with
     | some l => reply .ok (listBytes s l) s
     | none => reply .badIndex [] s)

/-- The three bytes of an initiator record (R184). -/
def initiatorBytes (x : Initiator) : List Byte :=
  [BitVec.ofNat 8 x.quota, (0 : BitVec 7) ++ flag x.strict, BitVec.ofNat 8 x.heldCount]

/-- READ_INITIATOR (R173). -/
def execReadInitiator (b : Byte) (s : State) : Host.Outcome State Fault Refusal :=
  inFrame (some .readInitiator) s
    (match initiatorOf? b with
     | some n => reply .ok (initiatorBytes (s.init n)) s
     | none => reply .badIndex [] s)

/-- The STALLED entry is of an initiator. -/
def State.stalledOf (s : State) (n : InitiatorId) : Bool :=
  match s.stalled with
  | some i => (match s.entry i with | some e => e.initiator == n | none => false)
  | none => false

/-- The quota and strict flag of an initiator are stored; a raised quota prompts a re-examination of its STALLED entry
(R86, R96). -/
def storeInitiator (n : InitiatorId) (quota : Nat) (strict : Bool) (s : State) : State :=
  let t := s.setInit n { s.init n with quota := quota, strict := strict }
  if (s.init n).quota < quota ∧ s.stalledOf n = true then prompt t else t

/-- WRITE_INITIATOR (R86, R162, R174). -/
def execWriteInitiator (b quota flags : Byte) (s : State) : Host.Outcome State Fault Refusal :=
  inFrame (some .writeInitiator) s
    (match initiatorOf? b with
     | some n =>
       if Config.maxQuota < quota.toNat then reply .badValue [] s
       else reply .ok [] (storeInitiator n quota.toNat (flags.getLsbD 0) s)
     | none => reply .badIndex [] s)

/-! ## Events -/

/-- POP_EVENTS (R149, R175): n is fixed; its records leave at RECORD_REMOVAL. -/
def execPopEvents (k : Byte) (s : State) : Host.Outcome State Fault Refusal :=
  inFrame (some .popEvents) s
    (if k = 0 ∨ Config.queueRecords < k.toNat then reply .badValue [] s
     else
       let n := min k.toNat s.events.length
       let t := reply .ok [BitVec.ofNat 8 n] s
       { t with port := { t.port with popLeft := n } })

/-- RECORD_REMOVAL (R149, R150): the record at the head has been shifted out whole and leaves the queue. -/
def execRecordRemoval (s : State) : Host.Outcome State Fault Refusal :=
  .next
    (if s.port.phase = .result ∧ 0 < s.port.popLeft then
      (match s.events with
       | e :: rest =>
         { s with
           events := rest
           port := { s.port with result := s.port.result ++ e.bytes, popLeft := s.port.popLeft - 1 } }
       | [] => s)
     else s)

/-- SET_EVENT_CONTROL (R143, R176, R185). -/
def execSetEventControl (maskHigh maskLow flags : Byte) (s : State) : Host.Outcome State Fault Refusal :=
  inFrame (some .setEventControl) s
    (match policyOf? (flags.extractLsb' 2 2) with
     | some policy =>
       reply .ok []
         { s with
           control :=
             { mask := maskHigh ++ maskLow, alertEnable := flags.getLsbD 0, globalReport := flags.getLsbD 1,
               openPolicy := policy } }
     | none => reply .badValue [] s)

end Sys2Proof.Machine
end

