-- ==== Sys2Proof/Machine/Power.lean ====
section
/-! DEFINITION. The domain controller's own events and the power channel: arrival notices, timers, drain completion, the
switch to GOVERNING, the transfer of commands, and acknowledges (01_power_domains, 05_the_power_channel). -/

namespace Sys2Proof.Machine

/-! ## Arrival notices -/

/-- A notice is taken by the state the domain controller finds (R7). DESIGN CHOICE (log 23): a notice that carries both facts
acts in each state by the fact that has an effect there, so in ACTIVE and DRAINING by its monitored fact. -/
def actOnNotice (n : Notice) (s : State) : State :=
  match (s.dom n.domain).state with
  | .active =>
    if n.monitored = true ∧ (s.dom n.domain).idleTimer.isSome = true then reloadIdle n.domain s else s
  | .draining => if n.monitored then enterActive n.domain s else s
  | .entering => if n.wake then setWakePending n.domain s else s
  | .low => if n.wake then handRaise n.domain s else s
  | .exiting => s
  | .fault => s

/-- ARRIVAL_NOTICE (R7, R48): the domain's earliest outstanding notice is taken. -/
def execArrivalNotice (d : DomainId) (s : State) : Host.Outcome State Fault Refusal :=
  whileRunning s
    (match s.notices.find? (fun n => n.domain == d) with
     | some n => actOnNotice n { s with notices := s.notices.eraseP (fun n => n.domain == d) }
     | none => s)

/-! ## Timers and drains -/

/-- IDLE_TIMER_EXPIRY (R8, R9): an ACTIVE domain whose idle timer is due goes to DRAINING. -/
def execIdleTimerExpiry (d : DomainId) (s : State) : Host.Outcome State Fault Refusal :=
  whileRunning s
    (if (s.dom d).state = .active ∧ timerDue (s.dom d).idleTimer s.timebase = true then
      enterDraining d .retain s
     else s)

/-- DRAIN_COMPLETION (R11). -/
def execDrainCompletion (d : DomainId) (s : State) : Host.Outcome State Fault Refusal :=
  whileRunning s (completeDrain d s)

/-- DEEP_TIMER_EXPIRY (R15): a domain LOW at RETAIN whose deep timer is due is stepped to OFF. -/
def execDeepTimerExpiry (d : DomainId) (s : State) : Host.Outcome State Fault Refusal :=
  whileRunning s
    (if (s.dom d).state = .low ∧ (s.dom d).level = .retain ∧ timerDue (s.dom d).deepTimer s.timebase = true then
      handLower d .off s
     else s)

/-- The command code an ACK_TIMEOUT record names: 1 LOWER, 2 RAISE (R1, R186). -/
def abandonedCode : DomainState → Byte
  | .exiting => 2
  | _ => 1

/-- The ack timer of a domain expires: the command is abandoned, the slot emptied, the domain enters FAULT, its held and
STALLED entries are declined DOMAIN_FAULT and ACK_TIMEOUT is recorded (R19, R101, R121, R148). -/
def abandonCommand (d : DomainId) (s : State) : State :=
  let x := s.dom d
  let t :=
    (s.setSlot d .empty).setDom d
      { x with state := .fault, idleTimer := none, deepTimer := none, ackTimer := none, wakePending := false }
  let n := massDeclineCount d everyEntry everyEntry s
  offer
    { record s .ackTimeout with
      domain := some d
      code := abandonedCode x.state
      detail := BitVec.ofNat 16 n
      value := if (s.slot d).isTaken then 1 else 0 }
    (massDecline d everyEntry everyEntry .domainFault t)

/-- ACK_TIMER_EXPIRY (R19). -/
def execAckTimerExpiry (d : DomainId) (s : State) : Host.Outcome State Fault Refusal :=
  whileRunning s (if timerDue (s.dom d).ackTimer s.timebase then abandonCommand d s else s)

/-! ## The switch to GOVERNING -/

/-- The switch is taken for one domain: its idle timer is reloaded and its stored pin acts; a HOLD_LOW pin starts a drain,
which completes at once when both counts are 0 (R32, R164). -/
def takeSwitch (d : DomainId) (s : State) : State :=
  if s.mode = .governing ∧ (s.dom d).state = .active then
    if (s.dom d).pin = .holdLow then completeDrain d (enterDraining d (s.dom d).pinLevel s)
    else reloadIdle d s
  else s

/-- GOVERNING_SWITCH_TAKEN (R32): taken once for each domain after a switch to GOVERNING. -/
def execGoverningSwitchTaken (d : DomainId) (s : State) : Host.Outcome State Fault Refusal :=
  whileRunning s
    (if d ∈ s.switches then takeSwitch d { s with switches := s.switches.filter (fun c => c != d) } else s)

/-! ## The power channel -/

/-- COMMAND_TRANSFER (R116): the memory controller takes the presented command, and its slot becomes TAKEN. -/
def execCommandTransfer (s : State) : Host.Outcome State Fault Refusal :=
  whileRunning s
    (match s.presentedCommand with
     | some d =>
       (match s.slot d with
        | .waiting c _ =>
          { s.setSlot d (.taken c) with sent := { s.sent with commands := s.sent.commands ++ [commandLines d c] } }
        | _ => s)
     | none => s)

/-- The domain controller clears contents-valid after reaching OFF, and its guarded held and STALLED reads are declined
CONTENT_LOST (R5, R13, R102). -/
def loseContents (d : DomainId) (s : State) : State :=
  massDecline d guardedEntry guardedEntry .contentLost (s.setDom d { s.dom d with contentsValid := false })

/-- DONE for LOWER (R13): LOW at the level reached; DOMAIN_LOW; at OFF the contents are lost; then RAISE if wake-pending
is set, or else the deep timer. -/
def doneLower (d : DomainId) (s : State) : State :=
  let x := s.dom d
  let t := s.setDom d { x with state := .low, idleTimer := none, deepTimer := none, ackTimer := none, wakePending := false }
  let u := offer { record s .domainLow with domain := some d, detail := x.level.value.setWidth 16 } t
  let v := if x.level = .off then loseContents d u else u
  if x.wakePending then handRaise d v else loadDeep d v

/-- REFUSED for LOWER (R14): back to ACTIVE with LOWER_REFUSED. -/
def refusedLower (d : DomainId) (s : State) : State :=
  offer
    { record s .lowerRefused with domain := some d, detail := (s.dom d).level.value.setWidth 16 }
    (enterActive d s)

/-- DONE for RAISE (R17): ACTIVE, the list released, DOMAIN_ACTIVE with the wake latency and the entries in the list. -/
def doneRaise (d : DomainId) (s : State) : State :=
  offer
    { record s .domainActive with
      domain := some d
      detail := BitVec.ofNat 16 (s.held (.domain d)).length
      value := s.timebase - (s.dom d).wakeStart }
    (enterActive d s)

/-- REFUSED for RAISE (R18): LOW at the level left, every entry of the list declined WAKE_REFUSED, RAISE_REFUSED, and the
deep timer loaded. -/
def refusedRaise (d : DomainId) (s : State) : State :=
  let x := s.dom d
  let t := s.setDom d { x with state := .low, idleTimer := none, deepTimer := none, ackTimer := none, wakePending := false }
  let n := massDeclineCount d everyEntry noEntry s
  loadDeep d
    (offer
      { record s .raiseRefused with domain := some d, detail := BitVec.ofNat 16 n }
      (massDecline d everyEntry noEntry .wakeRefused t))

/-- An acknowledge is delivered with the command it answers (R118). -/
def deliver (outcome : AckOutcome) (c : PowerCommand) (d : DomainId) (s : State) : State :=
  match c, outcome with
  | .lower _, .done => doneLower d s
  | .lower _, .refused => refusedLower d s
  | .raise, .done => doneRaise d s
  | .raise, .refused => refusedRaise d s

/-- The code of an acknowledge in a STRAY_ACK record (R186). -/
def ackCode : AckOutcome → Byte
  | .done => 1
  | .refused => 2

/-- A stray acknowledge is dropped and STRAY_ACK recorded with the slot's condition, 0 EMPTY or 1 WAITING (R122). -/
def strayAck (outcome : AckOutcome) (d : DomainId) (condition : BitVec 16) (s : State) : State :=
  offer { record s .strayAck with domain := some d, code := ackCode outcome, detail := condition } s

/-- ACKNOWLEDGE (R118): delivered from a TAKEN slot, which becomes EMPTY first, and stray otherwise. -/
def execAcknowledge (outcome : AckOutcome) (d : DomainId) (s : State) : Host.Outcome State Fault Refusal :=
  whileRunning s
    (match s.slot d with
     | .taken c => deliver outcome c d (s.setSlot d .empty)
     | .waiting _ _ => strayAck outcome d 1 s
     | .empty => strayAck outcome d 0 s)

end Sys2Proof.Machine
end

