-- ==== Sys2Proof/Machine/Resets.lean ====
section
/-! DEFINITION. Port reset, power-on reset and the microsecond (03 section 3.8, R77, R79, R127, R153, R154, R156, R190). -/

namespace Sys2Proof.Machine

/-- The number of entries in a state. -/
def State.countIn (s : State) (x : EntryState) : Nat :=
  (allEntries.filter (fun i => s.entryIn i x)).length

/-- What a port reset does to one entry: ISSUED becomes ORPHANED, ORPHANED stays, any other is discarded (R73). -/
def resetEntry (s : State) (i : EntryIdx) : State :=
  match s.entry i with
  | some e =>
    (match e.state with
     | .issued => s.setEntry i (some { e with state := .orphaned })
     | .orphaned => s
     | _ => freeEntry i s)
  | none => s

/-- The hold pool is emptied (R73, R105). -/
def emptyPool (s : State) : State :=
  { s with
    domainLists := Vector.replicate 8 []
    openList := []
    stalled := none
    prompts := 0
    holdBudget := 0
    initiators := mapTable (fun x => { x with heldCount := 0 }) s.initiators }

/-- A response that waits as forward candidate is now an orphan's response and is dropped (R65, R73, R75). -/
def dropForward (s : State) : State :=
  match s.forward with
  | some r =>
    (match entryOf? r.tag with
     | some i => { freeEntry i s with forward := none }
     | none => { s with forward := none })
  | none => s

/-- The entries a port reset discards (R73). -/
def State.discarded (s : State) : Nat :=
  s.countIn .passing + s.countIn .held + s.countIn .stalled + s.countIn .declining

/-- A port reset (R73, R105, R146). -/
def resetPort (s : State) : State :=
  let t := emptyPool (allEntries.foldl resetEntry s)
  offer
    { record s .portReset with
      detail := BitVec.ofNat 16 (s.countIn .issued)
      value := BitVec.ofNat 32 s.discarded }
    { dropForward t with stage := none, issueTurn := .release, returnTurn := .forward, portReset := true }

/-- PORT_RESET (R73). While RESETN is active only the pin is followed (R74; log 6); PORTRST already active is no event. -/
def execPortReset (s : State) : Host.Outcome State Fault Refusal :=
  .next (if s.portReset then s else if s.inReset then { s with portReset := true } else resetPort s)

/-- PORT_RESET_RELEASE (R74): PORTRST becomes inactive, and acceptance resumes under R56. -/
def execPortResetRelease (s : State) : Host.Outcome State Fault Refusal :=
  .next { s with portReset := false }

/-- The management port under power-on reset: the frame in progress is dropped, and the phase is IGNORING while chip
select is low (R156). -/
def resetPortPhase (p : Port) : Port :=
  { Port.reset with phase := if p.phase = .idle then .idle else .ignoring }

/-- Every table, queue, control and slot at its power-on value (R2, R34, R77, R79, R114, R154, R163). The pins, the queue
of waiting commands and what has been sent are not state of the blocks. DESIGN CHOICE (log 24): a response that waits as
forward candidate is no longer presented, so one that the memory controller still has comes again as a command. -/
def powerOn (inReset : Bool) (s : State) : State :=
  { State.reset with
    pending := s.pending
    inReset := inReset
    portReset := s.portReset
    port := resetPortPhase s.port
    sent := s.sent }

/-- POWER_ON_RESET (R77): RESETN becomes active. -/
def execPowerOnReset (s : State) : Host.Outcome State Fault Refusal :=
  .next (if s.inReset then s else powerOn true s)

/-- POWER_ON_RESET_RELEASE (R154): RESETN becomes inactive. -/
def execPowerOnResetRelease (s : State) : Host.Outcome State Fault Refusal :=
  .next (if s.inReset then powerOn false s else s)

/-- TIMEBASE_ADVANCE (R153): one microsecond, modulo 2^32; the timebase stays at 0 while RESETN is active (R154). -/
def execTimebaseAdvance (s : State) : Host.Outcome State Fault Refusal :=
  whileRunning s { s with timebase := s.timebase + 1 }

end Sys2Proof.Machine
end

