-- ==== Sys2Proof/Machine/Steering.lean ====
section
/-! DEFINITION. The domain controller's taking of steering claims (06_steering_words). -/

namespace Sys2Proof.Machine

/-- The earliest outstanding claim of an action on a domain. -/
def State.nextClaim (s : State) (a : SteeringAction) (d : DomainId) : Option Claim :=
  s.claims.find? (fun c => c.action == a && c.domain == d)

/-- The claims without the earliest one of an action on a domain. -/
def State.dropClaim (s : State) (a : SteeringAction) (d : DomainId) : State :=
  { s with claims := s.claims.eraseP (fun c => c.action == a && c.domain == d) }

/-- A KEEP claim (R134): activity on an ACTIVE domain, the cancelling of a drain whatever the pin, nothing elsewhere. -/
def takeKeep (d : DomainId) (s : State) : State :=
  match (s.dom d).state with
  | .active => reloadIdle d s
  | .draining => enterActive d s
  | _ => s

/-- KEEP_CLAIM (R134). A claim taken in TRANSPARENT mode is spent without effect (R133). -/
def execKeepClaim (d : DomainId) (s : State) : Host.Outcome State Fault Refusal :=
  whileRunning s
    (match s.nextClaim .keep d with
     | some _ => if s.mode = .governing then takeKeep d (s.dropClaim .keep d) else s.dropClaim .keep d
     | none => s)

/-- A RAISE claim is ignored and recorded with its cause: 3 PINNED_LOW, 4 DOMAIN_FAULT (R135, R138). -/
def ignoreClaim (c : Claim) (cause : BitVec 16) (s : State) : State :=
  offer (ignoredRecord s (some c.domain) c.window c.initiator c.tag c.value cause) s

/-- A RAISE claim (R135): ignored in FAULT and, outside EXITING, under a HOLD_LOW pin; else taken like the RAISE
action. -/
def takeRaiseClaim (c : Claim) (s : State) : State :=
  let x := s.dom c.domain
  match x.state with
  | .fault => ignoreClaim c 4 s
  | .exiting => s
  | _ => if x.pin = .holdLow then ignoreClaim c 3 s else takeUp c.domain s

/-- RAISE_CLAIM (R135). A claim taken in TRANSPARENT mode is spent without effect (R133). -/
def execRaiseClaim (d : DomainId) (s : State) : Host.Outcome State Fault Refusal :=
  whileRunning s
    (match s.nextClaim .raise d with
     | some c => if s.mode = .governing then takeRaiseClaim c (s.dropClaim .raise d) else s.dropClaim .raise d
     | none => s)

end Sys2Proof.Machine
end

