-- ==== Sys2Proof/Machine/Dispatch.lean ====
section
/-! DEFINITION. The meaning of every command: one arm for each row of spec/opcode_table.json. -/

namespace Sys2Proof.Machine

def exec (i : Instr) (s : State) : Host.Outcome State Fault Refusal :=
  match i with
  | .acceptance r => Sys2Proof.Machine.execAcceptance r s
  | .arrivalNotice d => Sys2Proof.Machine.execArrivalNotice d s
  | .issue => Sys2Proof.Machine.execIssue s
  | .downstreamResponse r => Sys2Proof.Machine.execDownstreamResponse r s
  | .forwarding => Sys2Proof.Machine.execForwarding s
  | .declineSend => Sys2Proof.Machine.execDeclineSend s
  | .reExamination => Sys2Proof.Machine.execReExamination s
  | .holdDeadlineExpiry k => Sys2Proof.Machine.execHoldDeadlineExpiry k s
  | .stallDeadlineExpiry => Sys2Proof.Machine.execStallDeadlineExpiry s
  | .idleTimerExpiry d => Sys2Proof.Machine.execIdleTimerExpiry d s
  | .drainCompletion d => Sys2Proof.Machine.execDrainCompletion d s
  | .deepTimerExpiry d => Sys2Proof.Machine.execDeepTimerExpiry d s
  | .ackTimerExpiry d => Sys2Proof.Machine.execAckTimerExpiry d s
  | .commandTransfer => Sys2Proof.Machine.execCommandTransfer s
  | .acknowledge o d => Sys2Proof.Machine.execAcknowledge o d s
  | .keepClaim d => Sys2Proof.Machine.execKeepClaim d s
  | .raiseClaim d => Sys2Proof.Machine.execRaiseClaim d s
  | .portReset => Sys2Proof.Machine.execPortReset s
  | .portResetRelease => Sys2Proof.Machine.execPortResetRelease s
  | .powerOnReset => Sys2Proof.Machine.execPowerOnReset s
  | .powerOnResetRelease => Sys2Proof.Machine.execPowerOnResetRelease s
  | .governingSwitchTaken d => Sys2Proof.Machine.execGoverningSwitchTaken d s
  | .readStatus => Sys2Proof.Machine.execReadStatus s
  | .setMode m => Sys2Proof.Machine.execSetMode m s
  | .readWindow w => Sys2Proof.Machine.execReadWindow w s
  | .writeWindow w r => Sys2Proof.Machine.execWriteWindow w r s
  | .readDomain d => Sys2Proof.Machine.execReadDomain d s
  | .writeDomain d r => Sys2Proof.Machine.execWriteDomain d r s
  | .raiseAction d a x => Sys2Proof.Machine.execRaiseAction d a x s
  | .lowerAction d l => Sys2Proof.Machine.execLowerAction d l s
  | .clearFault d a => Sys2Proof.Machine.execClearFault d a s
  | .validate d x => Sys2Proof.Machine.execValidate d x s
  | .flush d x => Sys2Proof.Machine.execFlush d x s
  | .listHeld l => Sys2Proof.Machine.execListHeld l s
  | .readInitiator n => Sys2Proof.Machine.execReadInitiator n s
  | .writeInitiator n q f => Sys2Proof.Machine.execWriteInitiator n q f s
  | .popEvents k => Sys2Proof.Machine.execPopEvents k s
  | .recordRemoval => Sys2Proof.Machine.execRecordRemoval s
  | .setEventControl h l f => Sys2Proof.Machine.execSetEventControl h l f s
  | .badCommand c => Sys2Proof.Machine.execBadCommand c s
  | .frameAbort b => Sys2Proof.Machine.execFrameAbort b s
  | .frameEnd => Sys2Proof.Machine.execFrameEnd s
  | .chipSelectFalling => Sys2Proof.Machine.execChipSelectFalling s
  | .ignoringEnd => Sys2Proof.Machine.execIgnoringEnd s
  | .timebaseAdvance => Sys2Proof.Machine.execTimebaseAdvance s

end Sys2Proof.Machine
end

