-- ==== Sys2Proof/Safety.lean ====
section
/-! DEFINITION. The laws of the device: what every step of the DF418 keeps. A run is safe while `Kept` holds of its
states. Each law names the rule that states it; where a rule's law needs a further fact to be kept by every step, that
fact is a clause of its own. -/

namespace Sys2Proof.Machine

/-- The number of live entries that satisfy a test. -/
def State.countEntries (s : State) (p : Entry → Bool) : Nat :=
  allEntries.countP (fun i => (s.entry i).any p)

/-- The event queue holds at most 64 records, and 64 records end in an OVERFLOW record (R141). -/
abbrev QueueKept (s : State) : Prop :=
  s.events.length ≤ 64 ∧ (s.events.length = 64 → ∀ e ∈ s.events.getLast?, e.kind = .overflow)

/-- The order of acceptance is a single order over the live entries, and every place in it has been given out (R57,
R59). -/
abbrev OrderKept (s : State) : Prop :=
  (∀ i, ∀ e ∈ s.entry i, e.order < s.nextOrder) ∧
  ∀ i j, i ≠ j → ∀ e ∈ s.entry i, ∀ f ∈ s.entry j, e.order ≠ f.order

/-- An entry is HELD exactly while it stands in the list it captured, and a list stands in the order of acceptance
(section 4.2, R81). -/
abbrev ListsKept (s : State) : Prop :=
  (∀ l ∈ allLists, ∀ i ∈ s.held l, ∃ e ∈ s.entry i, e.state = .held ∧ e.list = some l) ∧
  (∀ i, ∀ e ∈ s.entry i, e.state = .held → ∃ l ∈ e.list, i ∈ s.held l) ∧
  ∀ l ∈ allLists, (s.held l).Pairwise (fun i j => s.orderOf i < s.orderOf j)

/-- The stall slot and the decode stage name the STALLED and the PASSING entry, a STALLED entry has captured its list, and
such an entry is younger than every other live entry (R49, R60, R81, R94). -/
abbrev SinglesKept (s : State) : Prop :=
  (∀ i, s.stalled = some i ↔ s.entryIn i .stalled = true) ∧
  (∀ i, ∀ e ∈ s.entry i, e.state = .stalled → e.list.isSome = true) ∧
  (∀ i, s.stage = some i ↔ s.entryIn i .passing = true) ∧
  ∀ i j, i ≠ j → ∀ e ∈ s.entry i, (e.state = .stalled ∨ e.state = .passing) → ∀ f ∈ s.entry j, f.order < e.order

/-- The hold budget and the held counts count the HELD and STALLED entries, and at most 31 entries are HELD (R78, R80,
R84). -/
abbrev BudgetKept (s : State) : Prop :=
  s.heldTotal ≤ 31 ∧
  s.holdBudget = s.countEntries Entry.inPool ∧
  ∀ n, (s.init n).heldCount = s.countEntries (fun e => e.inPool && e.initiator == n)

/-- A DECLINING entry has its decline code (R57). -/
abbrev CodesKept (s : State) : Prop :=
  ∀ i, ∀ e ∈ s.entry i, e.state = .declining → e.code.isSome = true

/-- The hold pool and the decode stage agree with the transaction table. -/
abbrev PoolKept (s : State) : Prop :=
  OrderKept s ∧ ListsKept s ∧ SinglesKept s ∧ BudgetKept s ∧ CodesKept s

/-- The entry is in flight: PASSING, ISSUED or ORPHANED (R50). -/
def Entry.inFlight (e : Entry) : Bool :=
  e.state == .passing || e.state == .issued || e.state == .orphaned

/-- A domain's in-flight count is the number of its entries that are PASSING, ISSUED or ORPHANED, which are its counted
entries (R50, R57). -/
abbrev CountsKept (s : State) : Prop :=
  (∀ i, ∀ e ∈ s.entry i, e.counted = (e.inFlight && e.domain?.isSome)) ∧
  ∀ d, (s.dom d).inFlight = s.countEntries (fun e => e.inFlight && e.domain? == some d)

/-- The slot holds this command, WAITING or TAKEN. -/
def Slot.holds (x : Slot) (c : PowerCommand) : Bool :=
  match x with
  | .empty => false
  | .waiting b _ => b == c
  | .taken b => b == c

/-- The slot agrees with the domain record: LOWER at the record's level in ENTERING, RAISE in EXITING, EMPTY in any other
state, and the ack timer runs exactly while a command is outstanding (R114, R19). -/
def slotAgrees (x : Domain) (c : Slot) : Bool :=
  match x.state with
  | .entering => c.holds (.lower x.level) && x.ackTimer.isSome
  | .exiting => c.holds .raise && x.ackTimer.isSome
  | _ => c == .empty && x.ackTimer.isNone

/-- A domain has exactly one power command outstanding when it is ENTERING or EXITING, and none in any other state
(R114). -/
abbrev SlotsKept (s : State) : Prop :=
  ∀ d, slotAgrees (s.dom d) (s.slot d) = true

/-- The WAITING commands have different places in the order of handing, and every place has been given out (R114, R116). -/
abbrev HandingKept (s : State) : Prop :=
  (∀ d, ∀ n ∈ s.waitingAt d, n < s.nextHanding) ∧
  ∀ c d, c ≠ d → ∀ m ∈ s.waitingAt c, ∀ n ∈ s.waitingAt d, m ≠ n

/-- Wake-pending is set in ENTERING alone (R12, R110). -/
abbrev WakePendingKept (s : State) : Prop :=
  ∀ d, (s.dom d).wakePending = true → (s.dom d).state = .entering

/-- A running idle timer has its run conditions and the length of the stored limit (R8), and so has a running deep timer
(R15). -/
abbrev TimersKept (s : State) : Prop :=
  ∀ d,
    (∀ t ∈ (s.dom d).idleTimer, idleRuns s.mode (s.dom d) = true ∧ t.limit = (s.dom d).idleLimit.toNat * 16) ∧
    (∀ t ∈ (s.dom d).deepTimer, deepRuns s.mode (s.dom d) = true ∧ t.limit = (s.dom d).deepLimit.toNat * 1000)

/-- In TRANSPARENT mode every domain is ACTIVE with contents-valid set, no entry is HELD or STALLED, and no switch to
GOVERNING is outstanding (R165). -/
abbrev TransparentKept (s : State) : Prop :=
  s.mode = .transparent →
    (∀ d, (s.dom d).state = .active ∧ (s.dom d).contentsValid = true) ∧ s.holdBudget = 0 ∧ s.switches = []

/-- A timer whose run conditions hold is running: the idle timer once the domain has taken the switch to GOVERNING (R8,
R164), and the deep timer (R15). -/
abbrev TimersRunKept (s : State) : Prop :=
  ∀ d,
    (idleRuns s.mode (s.dom d) = true → d ∈ s.switches ∨ (s.dom d).idleTimer.isSome = true) ∧
    (deepRuns s.mode (s.dom d) = true → (s.dom d).deepTimer.isSome = true)

/-- A domain is ENTERING, LOW, EXITING or FAULT only while its in-flight count is 0 (R70; FAULT is reached from the other
three and so keeps it). -/
abbrev QuietKept (s : State) : Prop :=
  ∀ d, (s.dom d).state = .active ∨ (s.dom d).state = .draining ∨ (s.dom d).inFlight = 0

/-- The domain's wake notice is outstanding: given with a hold and not yet taken (R110). -/
def State.wakeOutstanding (s : State) (d : DomainId) : Bool :=
  s.notices.any (fun n => n.domain == d && n.wake)

/-- A domain's hold list is empty whenever the domain is LOW or FAULT, and in ENTERING it holds entries only while
wake-pending is set; except, in LOW and ENTERING, while a wake notice is outstanding (R110). No STALLED entry of a FAULT
domain exists (R101). -/
abbrev HoldLawKept (s : State) : Prop :=
  ∀ d,
    ((s.dom d).state = .low → s.held (.domain d) = [] ∨ s.wakeOutstanding d = true) ∧
    ((s.dom d).state = .fault →
      s.held (.domain d) = [] ∧ ∀ i, ∀ e ∈ s.entry i, e.state = .stalled → e.domain? ≠ some d) ∧
    ((s.dom d).state = .entering →
      s.held (.domain d) = [] ∨ (s.dom d).wakePending = true ∨ s.wakeOutstanding d = true)

/-- While an entry is PASSING, no entry is HELD in its list (R108). -/
abbrev PassAloneKept (s : State) : Prop :=
  ∀ i, ∀ e ∈ s.entry i, e.state = .passing → ∀ l ∈ e.list, s.held l = []

/-- While a guarded read waits for its issue, its domain's contents are valid (R111). -/
abbrev GuardKept (s : State) : Prop :=
  ∀ i, ∀ e ∈ s.entry i, e.guarded = true → (e.inPool || e.inFlight) = true →
    ∀ d ∈ e.domain?, (s.dom d).contentsValid = true

/-- The laws of the device together. -/
abbrev Kept (s : State) : Prop :=
  QueueKept s ∧ PoolKept s ∧ CountsKept s ∧ SlotsKept s ∧ HandingKept s ∧ WakePendingKept s ∧ TimersKept s ∧
  TransparentKept s ∧ TimersRunKept s ∧ QuietKept s ∧ HoldLawKept s ∧ PassAloneKept s ∧ GuardKept s

end Sys2Proof.Machine
end

