-- ==== Sys2Proof/Certificates/Slice0/Obligations.lean ====
section
/-! DEFINITION. The statements about the DF418, each a proposition of its own. The names of Sys2Proof.Claims spell what the
rules' tables say, in values and fields, so that a statement can be read beside the manual. An equation
`exec c s = .next t` says both what the command changes and that every other field of State stays as it is. -/

namespace Sys2Proof.Claims

open Sys2Proof.Machine

/-! ## What the tables of the rules say -/

/-- A frame whose command has been executed: these are its status byte and its result bytes (R157). -/
def answered (bytes : List Byte) (s : State) : State :=
  { s with port := { phase := .result, aborted := s.port.aborted, result := bytes, popLeft := 0 } }

/-- The idle timer of an ACTIVE domain after a reload (R8). -/
def idleFull (s : State) (x : Domain) : Option Timer :=
  if s.mode = .governing ∧ x.idleLimit ≠ 0 ∧ x.pin ≠ .holdOn then some ⟨s.timebase, x.idleLimit.toNat * 16⟩ else none

/-- The deep timer of a domain LOW at RETAIN after a load (R15). -/
def deepFull (s : State) (x : Domain) : Option Timer :=
  if s.mode = .governing ∧ x.discardable = true ∧ x.deepLimit ≠ 0 ∧ x.pin ≠ .holdOn then
    some ⟨s.timebase, x.deepLimit.toNat * 1000⟩
  else none

/-- The domain has entered ACTIVE with its idle timer reloaded; a list that is not empty sets the issue arbiter's turn
(R10, R62, R88). -/
def active (d : DomainId) (s : State) : State :=
  { s.setDom d
      { s.dom d with
        state := .active, idleTimer := idleFull s (s.dom d), deepTimer := none, ackTimer := none, wakePending := false }
    with issueTurn := if s.held (.domain d) = [] then s.issueTurn else .release }

/-- A command has been handed: the slot is WAITING at the next place in the order of handing (R114, R115). -/
def handed (d : DomainId) (c : PowerCommand) (s : State) : State :=
  { s.setSlot d (.waiting c s.nextHanding) with nextHanding := s.nextHanding + 1 }

/-- RAISE has been handed and the domain is EXITING (R16). -/
def waking (d : DomainId) (s : State) : State :=
  handed d .raise
    (s.setDom d
      { s.dom d with
        state := .exiting, idleTimer := none, deepTimer := none, wakePending := false, wakeStart := s.timebase
        ackTimer := some ⟨s.timebase, (s.dom d).ackLimit.toNat⟩ })

/-- LOWER has been handed at a level and the domain is ENTERING (R11, R15). -/
def lowering (d : DomainId) (l : Level) (s : State) : State :=
  handed d (.lower l)
    (s.setDom d
      { s.dom d with
        state := .entering, level := l, idleTimer := none, deepTimer := none, wakePending := false
        ackTimer := some ⟨s.timebase, (s.dom d).ackLimit.toNat⟩ })

/-- The domain is DRAINING with a target, its idle timer stopped (R9). -/
def draining (d : DomainId) (l : Level) (s : State) : State :=
  s.setDom d { s.dom d with state := .draining, level := l, idleTimer := none }

/-- What asking for a domain to be up does, by its state (R26, R135). -/
def raised (d : DomainId) (s : State) : State :=
  match (s.dom d).state with
  | .active => s.setDom d { s.dom d with idleTimer := idleFull s (s.dom d) }
  | .draining => active d s
  | .entering => s.setDom d { s.dom d with wakePending := true }
  | .low => waking d s
  | .exiting => s
  | .fault => s

/-- The state codes (R184). -/
def stateCode : DomainState → Nat
  | .active => 0
  | .draining => 1
  | .entering => 2
  | .low => 3
  | .exiting => 4
  | .fault => 5

/-- A flag's weight in a byte (R178). -/
def weigh (weight : Nat) (b : Bool) : Nat :=
  if b then weight else 0

/-- An event record that fills no field but its kind and time (R139). -/
def plain (k : EventKind) (time : Word) : Event where
  kind := k
  domain := none
  window := none
  initiator := none
  tag := 0
  code := 0
  detail := 0
  timestamp := time
  value := 0

/-- The DECLINE record of an entry (R144, R186): bit 15 of the detail is the direction, bits 6 to 0 the length. -/
def declineEvent (e : Entry) (c : DeclineCode) (time : Word) : Event :=
  { plain .decline time with
    domain := e.domain?
    window := e.window
    initiator := some e.initiator
    tag := e.tag
    code := c.value.setWidth 8
    detail := BitVec.ofNat 16 ((if e.direction = .write then 32768 else 0) + e.length % 128)
    value := e.address }

/-- The event queue after the decline of an entry: the record is offered under the entry's reporting flag (R144). -/
def declineReported (e : Entry) (c : DeclineCode) (s : State) : List Event :=
  if e.reportDeclines then (offer (declineEvent e c s.timebase) s).events else s.events

/-- A request of the same initiator and tag is live and not ORPHANED (R39). -/
def TagInUse (s : State) (r : Request) : Prop :=
  ∃ j f, s.entry j = some f ∧ f.state ≠ .orphaned ∧ f.initiator = r.initiator ∧ f.tag = r.tag

/-- The number of bytes of a request (R179). -/
def bytesOf (r : Request) : Nat :=
  if r.length = 0 then 64 else r.length.toNat

/-- All bytes of the request lie in one 4 KiB granule (R40). -/
def InOneGranule (r : Request) : Prop :=
  r.address.toNat % 4096 + bytesOf r ≤ 4096

/-- The window is enabled and its base equals the address in every bit from 31 to 12 whose mask bit is clear (R36). -/
def Matches (w : Window) (a : Word) : Prop :=
  w.enable = true ∧ ∀ k < 20, w.mask.getLsbD k = false → a.getLsbD (12 + k) = w.base.getLsbD k

/-- The two tests of the access check (R41). -/
def Permitted (w : Window) (r : Request) : Prop :=
  (match r.direction, r.privilege with
   | .read, .privileged => w.readPrivileged = true
   | .write, .privileged => w.writePrivileged = true
   | .read, .unprivileged => w.readUnprivileged = true
   | .write, .unprivileged => w.writeUnprivileged = true) ∧
  w.initiatorMask.getLsbD r.initiator.val = true

/-- The list is empty and the initiator is not strict-blocked, `own` of its held entries left out (R44, R46, R85). -/
def IsClear (s : State) (l : ListId) (n : InitiatorId) (own : Nat) : Prop :=
  s.held l = [] ∧ ¬((s.init n).strict = true ∧ (s.init n).heldCount - own ≠ 0)

/-- Room exists, `own` of the initiator's held entries left out (R80). -/
def RoomFor (s : State) (n : InitiatorId) (own : Nat) : Prop :=
  s.heldTotal < 31 ∧ (s.init n).heldCount - own < (s.init n).quota

/-- The head of a list, eligible for issue (R87). -/
def Eligible (s : State) (l : ListId) (i : EntryIdx) : Prop :=
  ∃ e rest, s.held l = i :: rest ∧ s.entry i = some e ∧ s.mode = .governing ∧
    (∀ d, l = .domain d → (s.dom d).state = .active ∨ (s.dom d).state = .draining) ∧
    ((s.init e.initiator).strict = true →
      ∀ j f, s.entry j = some f → (f.state = .held ∨ f.state = .stalled) → f.initiator = e.initiator →
        ¬f.order < e.order)

/-- The hold deadline of an entry has passed (R91). -/
def DeadlinePassed (e : Entry) (now : Word) : Prop :=
  ∃ t, e.deadline = some t ∧ (t - e.arrival).toNat ≤ (now - e.arrival).toNat

/-- The request as presented downstream for an entry: its tag is the entry index, lanes past the length are 0x00, a length
of 64 is written 0, and a read carries no data (R53, R63, R179, R180). -/
def presented (i : EntryIdx) (e : Entry) : DownRequest where
  initiator := e.initiator
  tag := BitVec.ofNat 8 i.val
  direction := if e.direction = .write then 1 else 0
  privilege := if e.privilege = .privileged then 1 else 0
  address := e.address
  length := BitVec.ofNat 6 e.length
  lanes := if e.direction = .write then some (Vector.ofFn (fun k => e.data.getD k.val 0)) else none

/-- The command direction of the power channel for a command of a domain (R188). -/
def driven (d : DomainId) (c : PowerCommand) : CommandLines where
  operation := if c = .raise then 1 else 0
  level := if c = .lower .off then 1 else 0
  domain := BitVec.ofNat 3 d.val

/-- A drain of the domain completes where its two counts are 0: LOWER is handed at its target (R11). The target is RETAIN
where discardable is clear (R4; log 13). -/
def drained (d : DomainId) (s : State) : State :=
  if (s.dom d).state = .draining ∧ (s.dom d).inFlight = 0 ∧ s.held (.domain d) = [] then
    lowering d (if (s.dom d).discardable = true then (s.dom d).level else .retain) s
  else s

/-- The record of an entry ISSUED from the stage or from a list, counted in the domain it was decoded to (R63, R70). -/
def issuedEntry (e : Entry) : Entry :=
  { e with state := .issued, data := [], counted := e.domain?.isSome }

/-- The in-flight count of the entry's domain has risen by one (R6). -/
def countedIn (e : Entry) (s : State) : State :=
  match e.domain? with
  | some d => s.setDom d { s.dom d with inFlight := (s.dom d).inFlight + 1 }
  | none => s

/-- The entry is freed; a counted entry's domain has one fewer in flight (R66, R70). -/
def freed (i : EntryIdx) (e : Entry) (s : State) : State :=
  match e.domain? with
  | some d =>
    if e.counted then (s.setEntry i none).setDom d { s.dom d with inFlight := (s.dom d).inFlight - 1 }
    else s.setEntry i none
  | none => s.setEntry i none

/-- The hold budget and the initiator's held count have risen by one (R81, R84, R94). -/
def placeTaken (n : InitiatorId) (s : State) : State :=
  { s.setInit n { s.init n with heldCount := (s.init n).heldCount + 1 } with holdBudget := s.holdBudget + 1 }

/-- The hold budget and the initiator's held count have fallen by one (R82, R84). -/
def placeGiven (n : InitiatorId) (s : State) : State :=
  { s.setInit n { s.init n with heldCount := (s.init n).heldCount - 1 } with holdBudget := s.holdBudget - 1 }

/-- The entry has left its hold list; the others keep their order (R82). -/
def unlisted (i : EntryIdx) (s : State) : State :=
  { s with
    domainLists := s.domainLists.map (fun l => l.filter (fun j => j != i))
    openList := s.openList.filter (fun j => j != i) }

/-- A re-examination of the STALLED entry has been prompted, if there is one (R96). -/
def prompted (s : State) : State :=
  { s with prompts := if s.stalled.isSome then s.prompts + 1 else s.prompts }

/-- The entry's arrival notice has been given to its domain, if it has one (R7). -/
def noticed (e : Entry) (wake : Bool) (s : State) : State :=
  match e.domain? with
  | some d => { s with notices := s.notices ++ [⟨d, e.monitored, wake⟩] }
  | none => s

/-- The entry is DECLINING with a code, its write data discarded (R56, R67). -/
def decliningEntry (c : DeclineCode) (e : Entry) : Entry :=
  { e with state := .declining, code := some c, data := [] }

/-- The entry has been declined and the decline reported (R67, R144). -/
def declinedAt (i : EntryIdx) (e : Entry) (c : DeclineCode) (s : State) : State :=
  { s.setEntry i (some (decliningEntry c e)) with events := declineReported e c s }

/-- The notice a domain controller takes first: the earliest given to the domain (R7; log 3). -/
def firstNotice (s : State) (d : DomainId) : Option Notice :=
  s.notices.find? (fun n => n.domain == d)

/-- That notice is taken away. -/
def withoutNotice (s : State) (d : DomainId) : State :=
  { s with notices := s.notices.eraseP (fun n => n.domain == d) }

/-- The earliest claim of an action on a domain (R133; log 3). -/
def firstClaim (s : State) (a : SteeringAction) (d : DomainId) : Option Claim :=
  s.claims.find? (fun c => c.action == a && c.domain == d)

/-- That claim is taken away. -/
def withoutClaim (s : State) (a : SteeringAction) (d : DomainId) : State :=
  { s with claims := s.claims.eraseP (fun c => c.action == a && c.domain == d) }

/-- The STEERING_IGNORED record of an ignored claim (R138). -/
def ignoredEvent (c : Claim) (cause : BitVec 16) (time : Word) : Event :=
  { plain .steeringIgnored time with
    domain := some c.domain
    window := some c.window
    initiator := some c.initiator
    tag := c.tag
    detail := cause
    value := c.value }

/-- The six fields of a WRITE DOMAIN are stored in a record (R24). -/
def stored (c : DomainConfig) (x : Domain) : Domain :=
  { x with
    idleLimit := c.idleLimit, deepLimit := c.deepLimit, ackLimit := c.ackLimit, discardable := c.discardable
    pin := c.pin, pinLevel := c.pinLevel }

end Sys2Proof.Claims

open Sys2Proof Sys2Proof.Machine Sys2Proof.Claims

/-! ## The machine and its commands -/

/-- A step takes the command at the front of the queue and runs it with the queue's rest. On an empty queue the block
idles: the model's choice (log 1). -/
def Obligations.StepRunsFrontCommand : Prop :=
  (∀ (c : Instr) (rest : List Instr) (s : State),
    step { s with pending := c :: rest } = exec c { s with pending := rest }) ∧
  ∀ s : State, s.pending = [] → step s = .next s

/-- What one command alone can change: the queue (none), the timebase, the mode, the window table, the recording controls,
the quotas and strict flags, the last-frame-aborted flag and the reset pins (R34, R86, R143, R153, R158, R163). -/
def Obligations.OnlyTheirCommandsChangeSettings : Prop :=
  ∀ (c : Instr) (s t : State), exec c s = .next t →
    c ≠ .powerOnReset → c ≠ .powerOnResetRelease →
      t.pending = s.pending ∧
      t.inReset = s.inReset ∧
      (c ≠ .timebaseAdvance → t.timebase = s.timebase) ∧
      ((∀ m, c ≠ .setMode m) → t.mode = s.mode) ∧
      ((∀ w r, c ≠ .writeWindow w r) → t.windows = s.windows) ∧
      ((∀ h l f, c ≠ .setEventControl h l f) → t.control = s.control) ∧
      ((∀ n q f, c ≠ .writeInitiator n q f) →
        ∀ n, (t.init n).quota = (s.init n).quota ∧ (t.init n).strict = (s.init n).strict) ∧
      ((∀ b, c ≠ .frameAbort b) → c ≠ .readStatus → t.port.aborted = s.port.aborted) ∧
      (c ≠ .portReset → c ≠ .portResetRelease → t.portReset = s.portReset)

/-- While RESETN is active the link, the domain controller, the hold pool, the power channel and the timebase do nothing
(R77, R79, R127, R154); and where no frame in progress awaits it, a management command does nothing, which is the
model's choice for a row that cannot take place (log 2). -/
def Obligations.RowsOutOfPlaceChangeNothing : Prop :=
  (∀ s : State, s.inReset = true → ∀ c : Instr,
    (match c with
     | .acceptance _ | .arrivalNotice _ | .issue | .downstreamResponse _ | .forwarding | .declineSend | .reExamination
     | .holdDeadlineExpiry _ | .stallDeadlineExpiry | .idleTimerExpiry _ | .drainCompletion _ | .deepTimerExpiry _
     | .ackTimerExpiry _ | .commandTransfer | .acknowledge _ _ | .keepClaim _ | .raiseClaim _ | .governingSwitchTaken _
     | .timebaseAdvance | .powerOnReset => True
     | _ => False) → exec c s = .next s) ∧
  ∀ (s : State) (c : Instr),
    (match c with
     | .readStatus => s.awaits (some .readStatus) = false
     | .setMode _ => s.awaits (some .setMode) = false
     | .readWindow _ => s.awaits (some .readWindow) = false
     | .writeWindow _ _ => s.awaits (some .writeWindow) = false
     | .readDomain _ => s.awaits (some .readDomain) = false
     | .writeDomain _ _ => s.awaits (some .writeDomain) = false
     | .raiseAction _ _ _ | .lowerAction _ _ | .clearFault _ _ | .validate _ _ | .flush _ _ =>
       s.awaits (some .domainAction) = false
     | .listHeld _ => s.awaits (some .listHeld) = false
     | .readInitiator _ => s.awaits (some .readInitiator) = false
     | .writeInitiator _ _ _ => s.awaits (some .writeInitiator) = false
     | .popEvents _ => s.awaits (some .popEvents) = false
     | .setEventControl _ _ _ => s.awaits (some .setEventControl) = false
     | .badCommand _ => s.awaits none = false
     | .frameAbort _ => ∀ c, s.awaits c = false
     | _ => False) → exec c s = .next s

/-! ## Reset and time -/

/-- R2: every domain record after power-on reset, and no power command is sent by it. -/
def Obligations.ResetDomainRecords : Prop :=
  (∀ d, State.reset.dom d =
    { state := .active, level := .retain, pin := .none, pinLevel := .retain, idleLimit := 0, idleTimer := none
      deepLimit := 0, deepTimer := none, discardable := false, ackLimit := 1000, ackTimer := none, inFlight := 0
      wakePending := false, contentsValid := true, wakeStart := 0 }) ∧
  (∀ l ∈ allLists, State.reset.held l = []) ∧
  State.reset.mode = .transparent ∧
  ∀ s t : State, exec .powerOnReset s = .next t ∨ exec .powerOnResetRelease s = .next t →
    t.sent.commands = s.sent.commands

/-- R34 and R79: the window table, the hold pool and the initiator table after power-on reset; a port reset leaves the
window table, and the hold pool does nothing while RESETN is active. -/
def Obligations.ResetWindowsAndHoldPool : Prop :=
  (∀ w, State.reset.win w =
    { enable := false, kind := .memory, base := 0, mask := 0, domain := 0, readPrivileged := false
      writePrivileged := false, readUnprivileged := false, writeUnprivileged := false, initiatorMask := 0
      wakePermitted := false, monitored := false, guarded := false, policy := .decline, reportDeclines := false
      raisePermitted := false, holdLimit := 0 }) ∧
  (∀ a, State.reset.windowFor a = none) ∧
  (∀ s t : State, exec .portReset s = .next t → t.windows = s.windows) ∧
  (∀ i, State.reset.entry i = none) ∧ State.reset.holdBudget = 0 ∧ (∀ l ∈ allLists, State.reset.held l = []) ∧
  State.reset.stalled = none ∧
  (∀ n, State.reset.init n = { quota := 8, strict := false, heldCount := 0 }) ∧
  ∀ s : State, s.inReset = true →
    (∀ r, exec (.acceptance r) s = .next s) ∧ exec .reExamination s = .next s ∧ exec .issue s = .next s ∧
    (∀ i, exec (.holdDeadlineExpiry i) s = .next s) ∧ exec .stallDeadlineExpiry s = .next s

/-- Power-on reset puts every block at the values of `State.reset`, at its assertion and at its release; the pins, the
queue of commands and the record of what has been sent stay, a frame in progress is dropped, and PORTRST is only
followed (R2, R34, R77, R79, R114, R154, R156, R163). That the values are set at assertion too, and that a waiting response
is no longer presented, are the model's choices (log 6, log 24). -/
def Obligations.PowerOnResetValues : Prop :=
  ∀ s : State,
    (s.inReset = false →
      exec .powerOnReset s = .next
        { State.reset with
          pending := s.pending, inReset := true, portReset := s.portReset, sent := s.sent
          port := ⟨if s.port.phase = .idle then .idle else .ignoring, false, [], 0⟩ }) ∧
    (s.inReset = true →
      exec .powerOnResetRelease s = .next
        { State.reset with
          pending := s.pending, inReset := false, portReset := s.portReset, sent := s.sent
          port := ⟨if s.port.phase = .idle then .idle else .ignoring, false, [], 0⟩ }) ∧
    (s.inReset = true → exec .powerOnReset s = .next s) ∧
    (s.inReset = false → exec .powerOnResetRelease s = .next s) ∧
    (s.inReset = true → exec .portReset s = .next { s with portReset := true }) ∧
    exec .portResetRelease s = .next { s with portReset := false }

/-! ## The event queue -/

/-- A record offered to the queue is dropped by the recording mask, appended, counted into the newest OVERFLOW record, or
leaves a new one (R140, R141, R142). -/
def Obligations.OfferedRecordIsTaken : Prop :=
  (∀ (c : EventControl) (k : EventKind),
    c.records k =
      (match k with
       | .domainLow => c.mask.getLsbD 0
       | .domainActive => c.mask.getLsbD 1
       | .lowerRefused => c.mask.getLsbD 2
       | .raiseRefused => c.mask.getLsbD 3
       | .ackTimeout => c.mask.getLsbD 4
       | .strayAck => c.mask.getLsbD 5
       | .decline => c.mask.getLsbD 6
       | .stallBegin => c.mask.getLsbD 7
       | .strayResponse => c.mask.getLsbD 8
       | .steeringIgnored => c.mask.getLsbD 9
       | .portReset => c.mask.getLsbD 10
       | .overflow => true)) ∧
  ∀ (e : Event) (s : State),
    (s.control.records e.kind = false → offer e s = s) ∧
    (s.control.records e.kind = true →
      (s.events.length ≤ 62 → offer e s = { s with events := s.events ++ [e] }) ∧
      (∀ front o, s.events = front ++ [o] → 62 ≤ front.length → o.kind = .overflow →
        offer e s =
          { s with events := front ++ [{ o with value := if o.value = 0xFFFFFFFF then o.value else o.value + 1 }] }) ∧
      (∀ front o, s.events = front ++ [o] → front.length = 62 → o.kind ≠ .overflow →
        offer e s =
          { s with
            events := s.events ++
              [{ plain .overflow e.timestamp with detail := e.kind.value.setWidth 16, value := 1 }] }))

/-- R152: ALERT is asserted while a record is queued and the alert enable is set, changes at the events of the table
alone, whatever the command, and tells nothing of the number queued, which READ STATUS reports. -/
def Obligations.AlertFollowsQueue : Prop :=
  ∀ s : State,
    (s.inReset = false → (s.alert = true ↔ s.events ≠ [] ∧ s.control.alertEnable = true)) ∧
    (s.inReset = true → s.alert = false) ∧
    (∀ e, s.inReset = false → s.events = [] → s.control.alertEnable = true → s.control.records e.kind = true →
      (offer e s).alert = true) ∧
    (∀ e, s.events ≠ [] ∨ s.control.records e.kind = false → (offer e s).alert = s.alert) ∧
    (∀ e, s.events = [e] → s.port.phase = .result → 0 < s.port.popLeft →
      ∃ t, exec .recordRemoval s = .next t ∧ t.alert = false) ∧
    (∀ h l f : Byte, s.awaits (some .setEventControl) = true → (f.toNat / 4) % 4 < 2 →
      ∃ t, exec (.setEventControl h l f) s = .next t ∧ (t.alert = true ↔ s.events ≠ [] ∧ f.getLsbD 0 = true)) ∧
    (s.awaits (some .readStatus) = true →
      ∃ t, exec .readStatus s = .next t ∧ t.resultBytes[2]? = some (BitVec.ofNat 8 s.events.length)) ∧
    (∃ t, exec .powerOnReset s = .next t ∧ t.alert = false) ∧
    (∀ c t, exec c s = .next t → t.alert ≠ s.alert →
      (s.alert = false ∧ s.events = [] ∧ t.events ≠ [] ∧ s.control.alertEnable = true) ∨
      (c = .recordRemoval ∧ s.alert = true ∧ ∃ e, s.events = [e] ∧ t.events = []) ∨
      (∃ h l f, c = .setEventControl h l f ∧ s.events ≠ [] ∧ t.alert = f.getLsbD 0) ∨
      (c = .powerOnReset ∧ t.alert = false))

/-! ## Frames -/

/-- A frame begins, is aborted, ends, or was ignored, and the eighth bit of byte 0 takes it from COMMAND to ARGUMENTS where the
code is of a command with arguments; it may then be executed as that command alone, and in COMMAND as any (R156, R158, R159).
That the eighth bit is carried by BAD_COMMAND, that a row may also carry the bits of the frame from its beginning, and that a
row which does not fit the phase changes nothing, are the model's choices (log 2, log 8). -/
def Obligations.FramePhases : Prop :=
  ∀ s : State,
    (s.port.phase = .idle →
      exec .chipSelectFalling s =
        .next { s with port := ⟨if s.inReset then .ignoring else .command, s.port.aborted, [], 0⟩ }) ∧
    (s.port.phase ≠ .idle → exec .chipSelectFalling s = .next s) ∧
    (∀ code c, s.inReset = false → s.port.phase = .command → commandOf? code = some c →
      exec (.badCommand code) s =
        .next (if c.arguments = 0 then s else { s with port := { s.port with phase := .arguments c } })) ∧
    (∀ c, s.awaits c = true ↔
      s.inReset = false ∧ (s.port.phase = .command ∨ ∃ a, c = some a ∧ s.port.phase = .arguments a)) ∧
    (∀ bits, s.awaits (commandOf? (firstByte bits)) = true → s.port.phase = .command ∨ 8 ≤ bits.length →
      notYetExecuted bits = true →
        exec (.frameAbort bits) s =
          .next { s with port := { s.port with phase := .idle, aborted := s.port.aborted || !bits.isEmpty } }) ∧
    (∀ bits, notYetExecuted bits = false → exec (.frameAbort bits) s = .next s) ∧
    (∀ bits a, s.port.phase = .arguments a → bits.length < 8 ∨ commandOf? (firstByte bits) ≠ some a →
      exec (.frameAbort bits) s = .next s) ∧
    (s.port.phase = .result → exec .frameEnd s = .next { s with port := ⟨.idle, s.port.aborted, [], 0⟩ }) ∧
    (s.port.phase ≠ .result → exec .frameEnd s = .next s) ∧
    (s.port.phase = .ignoring → exec .ignoringEnd s = .next { s with port := { s.port with phase := .idle } }) ∧
    (s.port.phase ≠ .ignoring → exec .ignoringEnd s = .next s)

/-- R160: a code that names no command changes no state, answers BAD_COMMAND as byte 1 and 0xFF from then on, and sets no
flag. -/
def Obligations.UnknownCodeIsBadCommand : Prop :=
  ∀ (code : Byte) (s : State),
    code.toNat ∉ [0x01, 0x02, 0x10, 0x11, 0x20, 0x21, 0x22, 0x30, 0x38, 0x39, 0x40, 0x41] → s.awaits none = true →
      exec (.badCommand code) s = .next (answered [0x01] s) ∧
      (answered [0x01] s).shiftedByte 0 = 0x01 ∧
      ∀ n, 0 < n → (answered [0x01] s).shiftedByte n = 0xFF

/-- READ STATUS answers the fourteen bytes of R185 and clears last-frame-aborted (R158, R167). That all items are of one
moment is the model's choice (log 20). -/
def Obligations.ReadStatusReports : Prop :=
  ∀ s : State, s.awaits (some .readStatus) = true →
    exec .readStatus s = .next
      { s with
        port :=
          { phase := .result, aborted := false, popLeft := 0
            result :=
              [0x00,
               if s.mode = .governing then 1 else 0,
               BitVec.ofNat 8 s.events.length,
               BitVec.ofNat 8 s.holdBudget,
               BitVec.ofNat 8
                 (weigh 1 s.stalled.isSome + weigh 2 s.port.aborted + weigh 4 s.control.alertEnable
                   + weigh 8 s.control.globalReport + weigh 16 (s.control.openPolicy == .stall)),
               s.timebase.extractLsb' 24 8, s.timebase.extractLsb' 16 8, s.timebase.extractLsb' 8 8,
               s.timebase.extractLsb' 0 8,
               BitVec.ofNat 8 (16 * stateCode (s.dom 7).state + stateCode (s.dom 6).state),
               BitVec.ofNat 8 (16 * stateCode (s.dom 5).state + stateCode (s.dom 4).state),
               BitVec.ofNat 8 (16 * stateCode (s.dom 3).state + stateCode (s.dom 2).state),
               BitVec.ofNat 8 (16 * stateCode (s.dom 1).state + stateCode (s.dom 0).state),
               s.control.mask.extractLsb' 8 8, s.control.mask.extractLsb' 0 8] } }

/-- SET MODE by the value, the mode in force and the guard (R163, R164, R165). That the switch to TRANSPARENT drops the
switches outstanding is the model's choice (log 14). -/
def Obligations.SetModeSwitches : Prop :=
  ∀ s : State, s.awaits (some .setMode) = true →
    (∀ b : Byte, b ≠ 0 → b ≠ 1 → exec (.setMode b) s = .next (answered [0x03] s)) ∧
    (s.mode = .transparent →
      exec (.setMode 0) s = .next (answered [0x00, 0] s) ∧
      exec (.setMode 1) s = .next (answered [0x00, 1] { s with mode := .governing, switches := allDomains })) ∧
    (s.mode = .governing →
      exec (.setMode 1) s = .next (answered [0x00, 1] s) ∧
      ((∀ d, (s.dom d).state = .active ∧ (s.dom d).contentsValid = true) ∧ s.holdBudget = 0 →
        exec (.setMode 0) s = .next
          (answered [0x00, 0]
            { s with
              mode := .transparent, switches := []
              domains := s.domains.map (fun x => { x with idleTimer := none }) })) ∧
      (¬((∀ d, (s.dom d).state = .active ∧ (s.dom d).contentsValid = true) ∧ s.holdBudget = 0) →
        exec (.setMode 0) s = .next (answered [0x04] s)))

/-! ## Windows, domains, lists, initiators and events as management sees them -/

/-- What a record is read as is what is written back: a window's bytes read as the window, bytes that describe a window are
written back with their unused bits 0, and a domain's configuration bytes read as its configuration (R35, R168, R183,
R184). -/
def Obligations.RecordsReadBackAsWritten : Prop :=
  (∀ (w : Window) (r : Vector Byte 12), r.toList = w.bytes → windowOfRecord? r = some w) ∧
  (∀ (w : Window) (r : Vector Byte 12), windowOfRecord? r = some w →
    w.bytes = (r[0] &&& 0x1F) :: (r[1] &&& 0x1F) :: r.toList.drop 2) ∧
  ∀ (x : Domain) (r : Vector Byte 8), r.toList = x.configBytes → 1 ≤ x.ackLimit.toNat → x.ackLimit.toNat ≤ 4095 →
    ¬(x.pin = .holdLow ∧ x.pinLevel = .off ∧ x.discardable = false) →
      configOf? r = some ⟨x.idleLimit, x.deepLimit, x.ackLimit, x.discardable, x.pin, x.pinLevel⟩

/-- WRITE WINDOW and READ WINDOW (R35, R168), and the place of each field in the record (R183). -/
def Obligations.WindowRecordFields : Prop :=
  (∀ r : Vector Byte 12,
    windowOfRecord? r = none ↔
      2 ≤ (r[0].toNat / 2) % 4 ∨ 2 ≤ (r[0].toNat / 8) % 4 ∨ 8 ≤ r[1].toNat % 16) ∧
  (∀ (r : Vector Byte 12) (w : Window), windowOfRecord? r = some w →
    w.enable = r[0].getLsbD 0 ∧ (w.kind = .steering ↔ (r[0].toNat / 2) % 4 = 1) ∧
    (w.policy = .stall ↔ (r[0].toNat / 8) % 4 = 1) ∧ w.domain.val = r[1].toNat % 16 ∧
    w.raisePermitted = r[1].getLsbD 4 ∧ w.readPrivileged = r[2].getLsbD 0 ∧ w.writePrivileged = r[2].getLsbD 1 ∧
    w.readUnprivileged = r[2].getLsbD 2 ∧ w.writeUnprivileged = r[2].getLsbD 3 ∧ w.wakePermitted = r[2].getLsbD 4 ∧
    w.monitored = r[2].getLsbD 5 ∧ w.guarded = r[2].getLsbD 6 ∧ w.reportDeclines = r[2].getLsbD 7 ∧
    w.base.toNat = r[3].toNat * 4096 + r[4].toNat * 16 + r[5].toNat / 16 ∧
    w.mask.toNat = (r[5].toNat % 16) * 65536 + r[6].toNat * 256 + r[7].toNat ∧
    w.initiatorMask.toNat = r[8].toNat * 256 + r[9].toNat ∧ w.holdLimit.toNat = r[10].toNat * 256 + r[11].toNat) ∧
  ∀ s : State,
    (s.awaits (some .readWindow) = true →
      (∀ b : Byte, 16 ≤ b.toNat → exec (.readWindow b) s = .next (answered [0x02] s)) ∧
      ∀ w : WindowId,
        exec (.readWindow (BitVec.ofNat 8 w.val)) s = .next (answered (0x00 :: (s.win w).bytes) s)) ∧
    (s.awaits (some .writeWindow) = true →
      (∀ (b : Byte) (r : Vector Byte 12), 16 ≤ b.toNat → exec (.writeWindow b r) s = .next (answered [0x02] s)) ∧
      ∀ w : WindowId,
        (∀ r, windowOfRecord? r = none →
          exec (.writeWindow (BitVec.ofNat 8 w.val) r) s = .next (answered [0x03] s)) ∧
        ∀ r x, windowOfRecord? r = some x →
          exec (.writeWindow (BitVec.ofNat 8 w.val) r) s = .next (answered [0x00] (s.setWin w x)))

/-- READ DOMAIN answers the sixteen bytes of R184 (R169). That all items are of one moment is the model's choice (log 20). -/
def Obligations.ReadDomainReports : Prop :=
  ∀ s : State, s.awaits (some .readDomain) = true →
    (∀ b : Byte, 8 ≤ b.toNat → exec (.readDomain b) s = .next (answered [0x02] s)) ∧
    ∀ d : DomainId,
      exec (.readDomain (BitVec.ofNat 8 d.val)) s = .next
        (answered
          ([0x00,
            (s.dom d).idleLimit.extractLsb' 8 8, (s.dom d).idleLimit.extractLsb' 0 8,
            (s.dom d).deepLimit.extractLsb' 8 8, (s.dom d).deepLimit.extractLsb' 0 8,
            (s.dom d).ackLimit.extractLsb' 8 8, (s.dom d).ackLimit.extractLsb' 0 8,
            BitVec.ofNat 8
              (weigh 1 (s.dom d).discardable + weigh 2 ((s.dom d).pin == .holdOn) + weigh 4 ((s.dom d).pin == .holdLow)
                + weigh 8 ((s.dom d).pinLevel == .off)),
            0,
            BitVec.ofNat 8
              (stateCode (s.dom d).state + weigh 8 ((s.dom d).level == .off) + weigh 16 (s.dom d).contentsValid
                + weigh 32 (s.dom d).wakePending + weigh 64 (s.slot d).isTaken),
            BitVec.ofNat 8 (s.dom d).inFlight,
            BitVec.ofNat 8 (s.held (.domain d)).length,
            0] ++
           (let units (unit : Nat) (t : Option Timer) : BitVec 16 :=
              match t with
              | none => 0
              | some t => BitVec.ofNat 16 (max 1 ((t.limit - (s.timebase - t.load).toNat + (unit - 1)) / unit))
            [(units 16 (s.dom d).idleTimer).extractLsb' 8 8, (units 16 (s.dom d).idleTimer).extractLsb' 0 8,
             (units 1000 (s.dom d).deepTimer).extractLsb' 8 8, (units 1000 (s.dom d).deepTimer).extractLsb' 0 8]))
          s)

/-- WRITE DOMAIN is refused in the four cases of R24 and for a number above 7 (R24, R170, R184), and the place of each
field in the record. -/
def Obligations.WriteDomainRefused : Prop :=
  (∀ r : Vector Byte 8,
    configOf? r = none ↔
      r[4].toNat * 256 + r[5].toNat = 0 ∨ 4095 < r[4].toNat * 256 + r[5].toNat ∨ (r[6].toNat / 2) % 4 = 3 ∨
      2 ≤ (r[6].toNat / 8) % 4 ∨
      ((r[6].toNat / 2) % 4 = 2 ∧ (r[6].toNat / 8) % 4 = 1 ∧ r[6].toNat % 2 = 0)) ∧
  (∀ (r : Vector Byte 8) (c : DomainConfig), configOf? r = some c →
    c.idleLimit.toNat = r[0].toNat * 256 + r[1].toNat ∧ c.deepLimit.toNat = r[2].toNat * 256 + r[3].toNat ∧
    c.ackLimit.toNat = r[4].toNat * 256 + r[5].toNat ∧ c.discardable = r[6].getLsbD 0 ∧
    (c.pin = .holdOn ↔ (r[6].toNat / 2) % 4 = 1) ∧ (c.pin = .holdLow ↔ (r[6].toNat / 2) % 4 = 2) ∧
    (c.pinLevel = .off ↔ (r[6].toNat / 8) % 4 = 1)) ∧
  ∀ s : State, s.awaits (some .writeDomain) = true →
    (∀ (b : Byte) (r : Vector Byte 8), 8 ≤ b.toNat → exec (.writeDomain b r) s = .next (answered [0x02] s)) ∧
    ∀ d : DomainId,
      (∀ r, configOf? r = none → exec (.writeDomain (BitVec.ofNat 8 d.val) r) s = .next (answered [0x03] s)) ∧
      ∀ r c, configOf? r = some c → c.pin = .holdLow →
        ((s.dom d).state = .entering ∨ (s.dom d).state = .exiting ∨ (s.dom d).state = .fault) →
          exec (.writeDomain (BitVec.ofNat 8 d.val) r) s = .next (answered [0x04] s)

/-- A WRITE DOMAIN that is taken stores six fields; in GOVERNING mode the limits act first and the pin second, by the
domain's state (R4, R8, R15, R22, R23, R24, R31). That a drain it starts with both counts 0 completes by the row
DRAIN_COMPLETION is the model's reading (log 4). -/
def Obligations.WriteDomainTaken : Prop :=
  ∀ (s : State) (d : DomainId) (r : Vector Byte 8) (c : DomainConfig),
    s.awaits (some .writeDomain) = true → configOf? r = some c →
    ¬(c.pin = .holdLow ∧ ((s.dom d).state = .entering ∨ (s.dom d).state = .exiting ∨ (s.dom d).state = .fault)) →
    let x := stored c (s.dom d)
    let u := s.setDom d x
    exec (.writeDomain (BitVec.ofNat 8 d.val) r) s = .next
      (answered [0x00]
        (if s.mode = .transparent then u
         else
           match c.pin, (s.dom d).state with
           | .none, .active => u.setDom d { x with idleTimer := idleFull s x }
           | .none, .draining =>
             u.setDom d { x with level := if x.level = .off ∧ x.discardable = false then .retain else x.level }
           | .none, .low => if x.level = .retain then u.setDom d { x with deepTimer := deepFull s x } else u
           | .none, _ => u
           | .holdOn, .active => u.setDom d { x with idleTimer := none }
           | .holdOn, .draining =>
             active d (u.setDom d { x with level := if x.level = .off ∧ x.discardable = false then .retain else x.level })
           | .holdOn, .entering => u.setDom d { x with wakePending := true }
           | .holdOn, .low => waking d u
           | .holdOn, _ => u
           | .holdLow, .active => draining d c.pinLevel u
           | .holdLow, .draining => u.setDom d { x with level := c.pinLevel }
           | .holdLow, .low =>
             if x.level = .off then u
             else if c.pinLevel = .off then lowering d .off u
             else u.setDom d { x with deepTimer := deepFull s x }
           | .holdLow, _ => u))

/-! ## Domain actions -/

/-- A domain number above 7 and an action code with no meaning are refused, and the RAISE action is taken by the state and
the pin (R25, R26). In EXITING the result is OK under a HOLD_LOW pin too, which R26 says does not arise: the model's
choice (log 13); that a term with another action's byte changes nothing is the model's too (log 9). -/
def Obligations.RaiseActionTaken : Prop :=
  ∀ (s : State) (argument : Byte), s.awaits (some .domainAction) = true →
    (∀ b action : Byte, 8 ≤ b.toNat → isOtherAction action = false →
      exec (.raiseAction b action argument) s = .next (answered [0x02] s)) ∧
    ∀ d : DomainId,
      (∀ action : Byte, (action.toNat = 0 ∨ 6 ≤ action.toNat) →
        exec (.raiseAction (BitVec.ofNat 8 d.val) action argument) s = .next (answered [0x03] s)) ∧
      (∀ action : Byte, 2 ≤ action.toNat → action.toNat ≤ 5 →
        exec (.raiseAction (BitVec.ofNat 8 d.val) action argument) s = .next s) ∧
      (s.mode = .transparent →
        exec (.raiseAction (BitVec.ofNat 8 d.val) 1 argument) s = .next (answered [0x04] s)) ∧
      (s.mode = .governing →
        ((s.dom d).state = .fault ∨
          ((s.dom d).pin = .holdLow ∧
            ((s.dom d).state = .draining ∨ (s.dom d).state = .entering ∨ (s.dom d).state = .low)) →
          exec (.raiseAction (BitVec.ofNat 8 d.val) 1 argument) s = .next (answered [0x04] s)) ∧
        ((s.dom d).state ≠ .fault →
          ¬((s.dom d).pin = .holdLow ∧
            ((s.dom d).state = .draining ∨ (s.dom d).state = .entering ∨ (s.dom d).state = .low)) →
          exec (.raiseAction (BitVec.ofNat 8 d.val) 1 argument) s = .next
            (answered [0x00, BitVec.ofNat 8 (stateCode ((raised d s).dom d).state), 0] (raised d s))))

/-- The LOWER action by the rows of R27: what is refused, with BAD_VALUE for a level without a meaning and BUSY in
TRANSPARENT mode first (R25), and the effect of each row. That a drain it starts with both counts 0 completes in the same
step is what R171 reports (log 4). -/
def Obligations.LowerActionTaken : Prop :=
  ∀ (s : State), s.awaits (some .domainAction) = true →
    (∀ b level : Byte, 8 ≤ b.toNat → exec (.lowerAction b level) s = .next (answered [0x02] s)) ∧
    ∀ d : DomainId,
      (∀ level : Byte, 2 ≤ level.toNat →
        exec (.lowerAction (BitVec.ofNat 8 d.val) level) s = .next (answered [0x03] s)) ∧
      (s.mode = .transparent → ∀ l : Level,
        exec (.lowerAction (BitVec.ofNat 8 d.val) (if l = .off then 1 else 0)) s = .next (answered [0x04] s)) ∧
      (s.mode = .governing → ∀ l : Level,
        let x := s.dom d
        let mismatched := x.pin = .holdLow ∧ x.pinLevel ≠ l
        let lost := l = .off ∧ x.discardable = false
        let busy := answered [0x04] s
        let badValue := answered [0x03] s
        let ok (t : State) := answered [0x00, BitVec.ofNat 8 (stateCode (t.dom d).state), 0] t
        exec (.lowerAction (BitVec.ofNat 8 d.val) (if l = .off then 1 else 0)) s = .next
          (match x.state with
           | .active =>
             if x.pin = .holdOn ∨ mismatched then busy
             else if lost then badValue
             else if x.inFlight = 0 ∧ s.held (.domain d) = [] then ok (lowering d l s)
             else ok (draining d l s)
           | .draining =>
             if mismatched then busy
             else if lost then badValue
             else ok (s.setDom d { x with level := l })
           | .low =>
             if x.level = .off then (if l = .retain ∨ mismatched then busy else ok s)
             else if l = .retain then (if mismatched then busy else ok s)
             else if x.pin = .holdOn ∨ mismatched then busy
             else if lost then badValue
             else ok (lowering d .off s)
           | .entering => busy
           | .exiting => busy
           | .fault => busy))

/-- CLEAR FAULT: refused as R25 and R28 say, and otherwise the assumption taken as the domain's state, with no command
sent. -/
def Obligations.ClearFaultTakesTheAssumption : Prop :=
  ∀ (s : State), s.awaits (some .domainAction) = true →
    (∀ b a : Byte, 8 ≤ b.toNat → exec (.clearFault b a) s = .next (answered [0x02] s)) ∧
    ∀ d : DomainId,
      (∀ a : Byte, 3 ≤ a.toNat → exec (.clearFault (BitVec.ofNat 8 d.val) a) s = .next (answered [0x03] s)) ∧
      (∀ a : Byte, a.toNat < 3 → (s.mode = .transparent ∨ (s.dom d).state ≠ .fault) →
        exec (.clearFault (BitVec.ofNat 8 d.val) a) s = .next (answered [0x04] s)) ∧
      (s.mode = .governing → (s.dom d).state = .fault →
        exec (.clearFault (BitVec.ofNat 8 d.val) 0) s = .next (answered [0x00, 0, 0] (active d s)) ∧
        exec (.clearFault (BitVec.ofNat 8 d.val) 1) s = .next
          (answered [0x00, 3, 0]
            (s.setDom d
              { s.dom d with state := .low, level := .retain, wakePending := false, deepTimer := deepFull s (s.dom d) })) ∧
        exec (.clearFault (BitVec.ofNat 8 d.val) 2) s = .next
          (answered [0x00, 3, 0]
            (s.setDom d { s.dom d with state := .low, level := .off, contentsValid := false, wakePending := false })))

/-- R29: VALIDATE sets contents-valid in every state and both modes, and does nothing else. -/
def Obligations.ValidateSetsContentsValid : Prop :=
  ∀ (s : State) (argument : Byte), s.awaits (some .domainAction) = true →
    (∀ b : Byte, 8 ≤ b.toNat → exec (.validate b argument) s = .next (answered [0x02] s)) ∧
    ∀ d : DomainId,
      exec (.validate (BitVec.ofNat 8 d.val) argument) s = .next
        (answered [0x00, BitVec.ofNat 8 (stateCode (s.dom d).state), 0]
          (s.setDom d { s.dom d with contentsValid := true }))

/-- A mass decline declines exactly the entries it selects from the domain's list, and the STALLED entry where it is of the
domain and selected, oldest first and with their records in that order; it gives up a place of the pool for each, leaves the
rest in their order, and where it freed a place prompts a STALLED entry that stays, once (R82, R84, R96, R99, R148; that it is
once is the model's choice, log 15). FLUSH selects every entry, in every state and both modes, completes a drain whose counts
are then both 0, and answers the state and the number declined (R30, R103, R171; log 13 for a target of OFF without
discardable). -/
def Obligations.FlushDeclinesTheDomain : Prop :=
  (∀ (s : State) (d : DomainId) (c : DeclineCode) (sel selStalled : Entry → Bool), PoolKept s →
    let listed (e : Entry) : Bool := e.state == .held && e.domain? == some d && sel e
    let parked (e : Entry) : Bool := e.state == .stalled && e.domain? == some d && selStalled e
    let chosen (e : Entry) : Bool := listed e || parked e
    let t := massDecline d sel selStalled c s
    (∀ i e, s.entry i = some e → t.entry i = if chosen e then some (decliningEntry c e) else some e) ∧
    (∀ i, s.entry i = none → t.entry i = none) ∧
    t.held (.domain d) = (s.held (.domain d)).filter (fun i => !(s.entry i).any sel) ∧
    (∀ l, l ≠ .domain d → t.held l = s.held l) ∧
    massDeclineCount d sel selStalled s = s.countEntries chosen ∧
    t.holdBudget + s.countEntries chosen = s.holdBudget ∧
    (∀ n, t.init n =
      { s.init n with
        heldCount := (s.init n).heldCount - s.countEntries (fun e => chosen e && e.initiator == n) }) ∧
    (∀ i e, s.stalled = some i → s.entry i = some e →
      t.stalled = (if parked e then none else some i) ∧
      t.prompts = if parked e then 0 else if s.countEntries listed = 0 then s.prompts else s.prompts + 1) ∧
    (s.stalled = none → t.stalled = none ∧ t.prompts = s.prompts) ∧
    (let order := ((s.held (.domain d) ++ s.stalled.toList).filterMap s.entry).filter chosen
     t.events = (order.foldl (fun u e => { u with events := declineReported e c u }) s).events) ∧
    t.domains = s.domains ∧ t.slots = s.slots ∧ t.nextHanding = s.nextHanding ∧ t.nextOrder = s.nextOrder ∧
    t.stage = s.stage ∧ t.issueTurn = s.issueTurn ∧ t.returnTurn = s.returnTurn ∧ t.forward = s.forward ∧
    t.notices = s.notices ∧ t.claims = s.claims ∧ t.switches = s.switches ∧ t.windows = s.windows ∧ t.mode = s.mode ∧
    t.timebase = s.timebase ∧ t.control = s.control ∧ t.port = s.port ∧ t.sent = s.sent ∧ t.pending = s.pending ∧
    t.inReset = s.inReset ∧ t.portReset = s.portReset) ∧
  ∀ (s : State) (argument : Byte), s.awaits (some .domainAction) = true →
    (∀ b : Byte, 8 ≤ b.toNat → exec (.flush b argument) s = .next (answered [0x02] s)) ∧
    ∀ d : DomainId,
      let t := drained d (massDecline d (fun _ => true) (fun _ => true) .flushed s)
      exec (.flush (BitVec.ofNat 8 d.val) argument) s = .next
        (answered
          [0x00, BitVec.ofNat 8 (stateCode (t.dom d).state),
           BitVec.ofNat 8 (massDeclineCount d (fun _ => true) (fun _ => true) s)] t)

/-! ## Lists, initiators and events -/

/-- LIST HELD answers the count and a twelve-byte summary for each entry from head to tail (R106, R172, R184). -/
def Obligations.ListHeldReports : Prop :=
  ∀ s : State, s.awaits (some .listHeld) = true →
    (∀ b : Byte, 9 ≤ b.toNat → exec (.listHeld b) s = .next (answered [0x02] s)) ∧
    let summary (e : Entry) : List Byte :=
      let age := min (s.timebase - e.arrival).toNat 16777215
      [BitVec.ofNat 8 e.initiator.val, e.tag,
       BitVec.ofNat 8
         (weigh 1 (e.direction == .write) + weigh 2 (e.privilege == .privileged) + weigh 4 (e.reason == some .order)),
       BitVec.ofNat 8 e.length,
       e.address.extractLsb' 24 8, e.address.extractLsb' 16 8, e.address.extractLsb' 8 8, e.address.extractLsb' 0 8,
       BitVec.ofNat 8 (age / 65536), BitVec.ofNat 8 (age / 256), BitVec.ofNat 8 age, 0]
    let list (l : ListId) : List Byte :=
      [0x00, BitVec.ofNat 8 (s.held l).length] ++ ((s.held l).filterMap s.entry).flatMap summary
    (∀ d : DomainId, exec (.listHeld (BitVec.ofNat 8 d.val)) s = .next (answered (list (.domain d)) s)) ∧
    exec (.listHeld 8) s = .next (answered (list .openPath) s)

/-- READ INITIATOR and WRITE INITIATOR (R86, R162, R173, R174, R184). A raised quota prompts a re-examination of the
initiator's STALLED entry (R96); that each event prompts one is the model's choice (log 15). -/
def Obligations.InitiatorCommands : Prop :=
  ∀ s : State,
    (s.awaits (some .readInitiator) = true →
      (∀ b : Byte, 16 ≤ b.toNat → exec (.readInitiator b) s = .next (answered [0x02] s)) ∧
      ∀ n : InitiatorId,
        exec (.readInitiator (BitVec.ofNat 8 n.val)) s = .next
          (answered
            [0x00, BitVec.ofNat 8 (s.init n).quota, BitVec.ofNat 8 (weigh 1 (s.init n).strict),
             BitVec.ofNat 8 (s.init n).heldCount] s)) ∧
    (s.awaits (some .writeInitiator) = true →
      (∀ b q f : Byte, 16 ≤ b.toNat → exec (.writeInitiator b q f) s = .next (answered [0x02] s)) ∧
      ∀ n : InitiatorId,
        (∀ q f : Byte, 32 < q.toNat →
          exec (.writeInitiator (BitVec.ofNat 8 n.val) q f) s = .next (answered [0x03] s)) ∧
        ∀ q f : Byte, q.toNat ≤ 32 →
          let own := ∃ i e, s.stalled = some i ∧ s.entry i = some e ∧ e.initiator = n
          ∃ t, exec (.writeInitiator (BitVec.ofNat 8 n.val) q f) s = .next (answered [0x00] t) ∧
            (((s.init n).quota < q.toNat ∧ own) →
              t = { s.setInit n { s.init n with quota := q.toNat, strict := f.getLsbD 0 }
                    with prompts := s.prompts + 1 }) ∧
            (¬((s.init n).quota < q.toNat ∧ own) →
              t = s.setInit n { s.init n with quota := q.toNat, strict := f.getLsbD 0 }))

/-- POP EVENTS fixes n; each record leaves the head when it has been shifted out whole, and its leaving does not change the
bytes of the frame (R149, R150, R175). -/
def Obligations.PopEventsShiftsRecords : Prop :=
  (∀ s : State, s.awaits (some .popEvents) = true →
    (∀ k : Byte, k.toNat = 0 ∨ 64 < k.toNat → exec (.popEvents k) s = .next (answered [0x03] s)) ∧
    ∀ k : Byte, 1 ≤ k.toNat → k.toNat ≤ 64 →
      ∃ t, exec (.popEvents k) s = .next t ∧
        t = { s with
              port :=
                { phase := .result, aborted := s.port.aborted, popLeft := min k.toNat s.events.length
                  result := [0x00, BitVec.ofNat 8 (min k.toNat s.events.length)] } } ∧
        t.resultBytes =
          [0x00, BitVec.ofNat 8 (min k.toNat s.events.length)] ++
            (s.events.take (min k.toNat s.events.length)).flatMap Event.bytes) ∧
  ∀ s : State,
    (∀ e rest, s.port.phase = .result → 0 < s.port.popLeft → s.events = e :: rest →
      ∃ t, exec .recordRemoval s = .next t ∧
        t = { s with
              events := rest
              port := { s.port with result := s.port.result ++ e.bytes, popLeft := s.port.popLeft - 1 } } ∧
        t.resultBytes = s.resultBytes) ∧
    (s.port.phase ≠ .result ∨ s.port.popLeft = 0 ∨ s.events = [] → exec .recordRemoval s = .next s)

/-- R176: SET EVENT CONTROL stores the four controls, or nothing where the policy has no meaning; they are read back with
READ STATUS, and ALERT follows at once. -/
def Obligations.EventControlsStored : Prop :=
  ∀ (s : State) (h l f : Byte), s.awaits (some .setEventControl) = true →
    (2 ≤ (f.toNat / 4) % 4 → exec (.setEventControl h l f) s = .next (answered [0x03] s)) ∧
    ((f.toNat / 4) % 4 < 2 →
      ∃ t, exec (.setEventControl h l f) s = .next (answered [0x00] t) ∧
        t = { s with
              control :=
                { mask := h ++ l, alertEnable := f.getLsbD 0, globalReport := f.getLsbD 1
                  openPolicy := if (f.toNat / 4) % 4 = 1 then .stall else .decline } } ∧
        (statusBytes t).drop 12 = [h, l] ∧
        statusFlags t =
          BitVec.ofNat 8
            (weigh 1 s.stalled.isSome + weigh 2 s.port.aborted + weigh 4 (f.getLsbD 0) + weigh 8 (f.getLsbD 1)
              + weigh 16 ((f.toNat / 4) % 4 == 1)) ∧
        (t.alert = true ↔ s.events ≠ [] ∧ f.getLsbD 0 = true))

/-! ## Acceptance and decode -/

/-- The upstream port withholds acceptance while RESETN or PORTRST is active, the decode stage is taken, no entry is free,
or an entry is STALLED (R56, R94); a request that is withheld changes nothing. -/
def Obligations.AcceptanceWithheld : Prop :=
  ∀ (s : State) (r : Request),
    (s.inReset = true ∨ s.portReset = true ∨ s.stage ≠ none ∨ s.stalled ≠ none ∨ ∀ i, s.entry i ≠ none) →
      exec (.acceptance r) s = .next s

/-- A request's window is the enabled matching window with the lowest index, and the mask decides which address bits are
compared (R36, R37). -/
def Obligations.WindowIsLowestMatch : Prop :=
  ∀ (s : State) (a : Word),
    (∀ w, s.windowFor a = some w ↔ Matches (s.win w) a ∧ ∀ v < w, ¬Matches (s.win v) a) ∧
    (s.windowFor a = none ↔ ∀ w, ¬Matches (s.win w) a)

/-- The decode sequence and what it captures: the tag check in both modes, and in GOVERNING mode the boundary check, the
window match, the access check, the steering window, the guard check and the domain-state step, in that order; in
TRANSPARENT mode the counting match alone (R37, R38, R39, R40, R41, R42, R43, R46, R49, R51). -/
def Obligations.DecodeSequence : Prop :=
  ∀ (s : State) (r : Request),
    (TagInUse s r → decodeRequest s r = declinedAs none none s.control.globalReport .tagReuse) ∧
    (¬TagInUse s r → s.mode = .transparent →
      decodeRequest s r =
        { window := none, guarded := false, monitored := false, wakePermitted := false, policy := .decline
          report := false, deadline := none, decision := .pass, word := none
          list :=
            match s.windowFor r.address with
            | some w => if (s.win w).kind = .memory then some (.domain (s.win w).domain) else none
            | none => none }) ∧
    (¬TagInUse s r → s.mode = .governing → ¬InOneGranule r →
      decodeRequest s r = declinedAs none none s.control.globalReport .boundary) ∧
    (¬TagInUse s r → s.mode = .governing → InOneGranule r →
      (s.windowFor r.address = none →
        decodeRequest s r =
          { window := none, list := some .openPath, guarded := false, monitored := false, wakePermitted := false
            policy := s.control.openPolicy, report := s.control.globalReport, deadline := none
            decision := openStep s r.initiator 0, word := none }) ∧
      ∀ w, s.windowFor r.address = some w →
        let x := s.win w
        let deadline := if x.holdLimit = 0 then none else some (s.timebase + x.holdLimit.setWidth 32)
        (¬Permitted x r →
          decodeRequest s r =
            declinedAs (some w) (some (if x.kind = .memory then .domain x.domain else .openPath)) x.reportDeclines
              .denied) ∧
        (Permitted x r → x.kind = .steering →
          decodeRequest s r =
            { window := some w, list := some .openPath, guarded := false, monitored := false, wakePermitted := false
              policy := x.policy, report := x.reportDeclines, deadline := deadline
              decision := openStep s r.initiator 0
              word :=
                if r.direction = .write ∧ bytesOf r = 4 ∧ r.address.toNat % 4 = 0 then some w else none }) ∧
        (Permitted x r → x.kind = .memory → x.guarded = true → r.direction = .read →
          (s.dom x.domain).contentsValid = false →
            decodeRequest s r = declinedAs (some w) (some (.domain x.domain)) x.reportDeclines .contentLost) ∧
        (Permitted x r → x.kind = .memory →
          ¬(x.guarded = true ∧ r.direction = .read ∧ (s.dom x.domain).contentsValid = false) →
            decodeRequest s r =
              { window := some w, list := some (.domain x.domain), guarded := x.guarded && r.direction == .read
                monitored := x.monitored, wakePermitted := x.wakePermitted, policy := x.policy
                report := x.reportDeclines, deadline := deadline
                decision := domainStep s x.domain x.wakePermitted r.initiator 0, word := none }))

/-- The domain-state step and the OPEN path (R44, R46, R85). -/
def Obligations.DomainStateStep : Prop :=
  ∀ (s : State) (d : DomainId) (permitted : Bool) (n : InitiatorId) (own : Nat),
    let x := s.dom d
    let step := domainStep s d permitted n own
    (x.state = .active ∨ (x.state = .draining ∧ x.pin ≠ .holdLow) →
      (IsClear s (.domain d) n own → step = .pass) ∧ (¬IsClear s (.domain d) n own → step = .hold .order)) ∧
    (x.state = .draining → x.pin = .holdLow → step = .decline .asleep) ∧
    (x.state = .entering ∨ x.state = .low →
      (permitted = true ∧ x.pin ≠ .holdLow → step = .hold .wake) ∧
      (¬(permitted = true ∧ x.pin ≠ .holdLow) → step = .decline .asleep)) ∧
    (x.state = .exiting → step = .hold .wake) ∧
    (x.state = .fault → step = .decline .domainFault) ∧
    (IsClear s .openPath n own → openStep s n own = .pass) ∧
    (¬IsClear s .openPath n own → openStep s n own = .hold .order)

/-- An accepted request takes the lowest free entry, the next place in the order of acceptance and the timebase as arrival
time, and is decoded in the same event; where decode passes it is PASSING in the decode stage, counted in its domain, and
its domain is given a notice; where decode declines it is DECLINING (R7, R52, R56, R59, R60, R70). -/
def Obligations.AcceptancePassesOrDeclines : Prop :=
  ∀ (s : State) (r : Request) (i : EntryIdx),
    s.inReset = false → s.portReset = false → s.stage = none → s.stalled = none →
    s.entry i = none → (∀ j < i, s.entry j ≠ none) →
    let x := decodeRequest s r
    let e := newEntry s r x
    let ordered := { s with nextOrder := s.nextOrder + 1 }
    let u := match x.word with
      | some w => takeSteeringWord w r ordered
      | none => ordered
    (e.initiator = r.initiator ∧ e.tag = r.tag ∧ e.direction = r.direction ∧ e.privilege = r.privilege ∧
      e.address = r.address ∧ e.length = bytesOf r ∧ e.order = s.nextOrder ∧ e.arrival = s.timebase ∧
      e.data = (if r.direction = .write then r.lanes.toList.take (bytesOf r) else [])) ∧
    (x.decision = .pass →
      let v := countedIn e { u.setEntry i (some { e with counted := e.domain?.isSome }) with stage := some i }
      exec (.acceptance r) s = .next (if s.mode = .governing then noticed e false v else v)) ∧
    ∀ c, x.decision = .decline c → exec (.acceptance r) s = .next (declinedAt i e c u)

/-- A request that must be held joins the tail of its list where room exists, with its notice given, and otherwise is
declined POOL_FULL or STALLED by its exhaustion policy (R47, R80, R81, R94, R146). -/
def Obligations.AcceptanceHoldsOrStalls : Prop :=
  ∀ (s : State) (r : Request) (i : EntryIdx) (reason : HoldReason) (l : ListId),
    s.inReset = false → s.portReset = false → s.stage = none → s.stalled = none →
    s.entry i = none → (∀ j < i, s.entry j ≠ none) →
    let x := decodeRequest s r
    x.decision = .hold reason → x.list = some l →
    let e := newEntry s r x
    let ordered := { s with nextOrder := s.nextOrder + 1 }
    let u := match x.word with
      | some w => takeSteeringWord w r ordered
      | none => ordered
    (RoomFor s r.initiator 0 →
      exec (.acceptance r) s = .next
        (noticed e (reason == .wake)
          (placeTaken r.initiator
            ((u.setEntry i (some { e with state := .held, reason := some reason })).setHeld l (s.held l ++ [i]))))) ∧
    (¬RoomFor s r.initiator 0 → x.policy = .decline →
      exec (.acceptance r) s = .next (declinedAt i e .poolFull u)) ∧
    (¬RoomFor s r.initiator 0 → x.policy = .stall →
      exec (.acceptance r) s = .next
        { placeTaken r.initiator (u.setEntry i (some { e with state := .stalled })) with
          stalled := some i, prompts := 0
          events :=
            (offer
              { plain .stallBegin s.timebase with
                domain := e.domain?, window := e.window, initiator := some r.initiator, tag := r.tag, value := r.address
                detail :=
                  BitVec.ofNat 16
                    (weigh 1 (decide (31 ≤ s.heldTotal)) +
                      weigh 2 (decide ((s.init r.initiator).quota ≤ (s.init r.initiator).heldCount))) }
              u).events })

/-- A steering word: how its value is formed, its action and its domain mask, and the claims it makes or the record its
being ignored leaves (R131, R132, R133, R138, R182). -/
def Obligations.SteeringWordTaken : Prop :=
  ∀ (w : WindowId) (r : Request) (s : State),
    let v := steeringValue r.lanes
    let make (a : SteeringAction) : List Claim :=
      (allDomains.filter (fun d => v.getLsbD (8 + d.val))).map (fun d => ⟨a, d, w, r.initiator, r.tag, v⟩)
    let ignored (cause : BitVec 16) : Event :=
      { plain .steeringIgnored s.timebase with
        window := some w, initiator := some r.initiator, tag := r.tag, detail := cause, value := v }
    v.toNat =
      r.lanes[0].toNat + 256 * r.lanes[1].toNat + 65536 * r.lanes[2].toNat + 16777216 * r.lanes[3].toNat ∧
    (v.toNat % 4 = 0 → takeSteeringWord w r s = s) ∧
    (v.toNat % 4 = 1 → takeSteeringWord w r s = { s with claims := s.claims ++ make .keep }) ∧
    (v.toNat % 4 = 2 → (s.win w).raisePermitted = true →
      takeSteeringWord w r s = { s with claims := s.claims ++ make .raise }) ∧
    (v.toNat % 4 = 2 → (s.win w).raisePermitted = false → takeSteeringWord w r s = offer (ignored 2) s) ∧
    (v.toNat % 4 = 3 → takeSteeringWord w r s = offer (ignored 1) s)

/-! ## Issue and return -/

/-- ISSUE sends the pass candidate or the release candidate by the turn, which it sets (R61, R62, R63, R70, R82, R96). The
hypotheses on `counted` hold of every state that keeps the law of R50. That a freed slot prompts one re-examination is the
model's choice (log 15). -/
def Obligations.IssueSendsByTurn : Prop :=
  ∀ s : State, s.inReset = false →
    (s.stage = none → s.releaseCandidate = none → exec .issue s = .next s) ∧
    (∀ p e, s.stage = some p → s.entry p = some e → e.counted = e.domain?.isSome →
      (s.releaseCandidate = none ∨ s.issueTurn = .pass) →
        exec .issue s = .next
          { s.setEntry p (some (issuedEntry e)) with
            stage := none, issueTurn := .release
            sent := { s.sent with downstream := s.sent.downstream ++ [presented p e] } }) ∧
    (∀ i e, s.releaseCandidate = some i → s.entry i = some e → e.counted = false → s.stage ≠ some i →
      (s.stage = none ∨ s.issueTurn = .release) →
        exec .issue s = .next
          (prompted
            (countedIn e
              { (placeGiven e.initiator (unlisted i s)).setEntry i (some (issuedEntry e)) with
                issueTurn := .pass
                sent := { s.sent with downstream := s.sent.downstream ++ [presented i e] } })))

/-- The release candidate is the oldest of the eligible heads of the hold lists, and absent where there is none (R61,
R87). -/
def Obligations.ReleaseCandidateIsOldestEligibleHead : Prop :=
  ∀ s : State,
    (s.releaseCandidate = none ↔ ∀ l i, ¬Eligible s l i) ∧
    ∀ i, s.releaseCandidate = some i →
      (∃ l, Eligible s l i) ∧ ∀ l j, Eligible s l j → s.orderOf i ≤ s.orderOf j

/-- The oldest HELD entry of all is the release candidate whenever its list is OPEN or its domain is ACTIVE or DRAINING,
and the mode is GOVERNING (R112). -/
def Obligations.OldestHeldEntryIsReleased : Prop :=
  ∀ (s : State) (i : EntryIdx) (e : Entry) (l : ListId), PoolKept s → s.mode = .governing →
    s.entry i = some e → e.state = .held → e.list = some l →
    (∀ j f, s.entry j = some f → f.state = .held → j ≠ i → e.order < f.order) →
    (∀ d, l = .domain d → (s.dom d).state = .active ∨ (s.dom d).state = .draining) →
      Eligible s l i ∧ s.releaseCandidate = some i

/-- Entries of one hold list are issued in the order in which they were accepted: an issue never overtakes an older entry
of the same list (R108). An entry issued from a list while its initiator is strict overtakes no older request of that
initiator (R109). -/
def Obligations.ListsAreIssuedInOrder : Prop :=
  ∀ (s t : State) (i : EntryIdx) (e e' : Entry), Kept s → exec .issue s = .next t →
    s.entry i = some e → e.state ≠ .issued → t.entry i = some e' → e'.state = .issued →
      ∀ j f, s.entry j = some f → (f.state = .passing ∨ f.state = .held ∨ f.state = .stalled) → j ≠ i →
        (∀ l, e.list = some l → f.list = some l → e.order < f.order) ∧
        (e.state = .held → (s.init e.initiator).strict = true → f.initiator = e.initiator → e.order < f.order)

/-- A presented memory response is matched by its tag alone: it waits as forward candidate, frees an orphan, or is stray
(R65, R69, R75, R146); while one waits the next is withheld. -/
def Obligations.DownstreamResponseMatched : Prop :=
  ∀ (s : State) (r : MemResponse), s.inReset = false →
    let stray (detail : BitVec 16) :=
      offer { plain .strayResponse s.timebase with tag := r.tag, code := r.code.setWidth 8, detail := detail } s
    (s.forward ≠ none → exec (.downstreamResponse r) s = .next s) ∧
    (s.forward = none →
      (64 ≤ r.tag.toNat → exec (.downstreamResponse r) s = .next (stray 15)) ∧
      ∀ i : EntryIdx, r.tag.toNat = i.val →
        exec (.downstreamResponse r) s = .next
          (match s.entry i with
           | none => stray 0
           | some e =>
             match e.state with
             | .issued => { s with forward := some r }
             | .orphaned => freed i e s
             | .passing => stray 1
             | .held => stray 2
             | .stalled => stray 3
             | .declining => stray 4))

/-- FORWARDING and DECLINE_SEND by the return arbiter's turn: the upstream response, the freed entry and the turn
afterwards (R54, R66, R67, R68, R180). A send that the turn gives to the other candidate changes nothing, which is the
model's choice for a row that cannot take place (log 2, log 12). -/
def Obligations.ReturnArbiterSendsByTurn : Prop :=
  ∀ s : State, s.inReset = false →
    let declining := ∃ k g, s.entry k = some g ∧ g.state = .declining
    let oldest (j : EntryIdx) (f : Entry) :=
      s.entry j = some f ∧ f.state = .declining ∧
        ∀ k g, s.entry k = some g → g.state = .declining → k ≠ j → f.order < g.order
    let waits (i : EntryIdx) (e : Entry) (r : MemResponse) :=
      s.forward = some r ∧ r.tag.toNat = i.val ∧ s.entry i = some e ∧ e.state = .issued
    (∀ i e r, waits i e r → (s.returnTurn = .forward ∨ ¬declining) →
      exec .forwarding s = .next
        { freed i e s with
          forward := none, returnTurn := .decline
          sent :=
            { s.sent with
              upstream := s.sent.upstream ++
                [if e.direction = .read ∧ r.code = 0 then
                   ⟨e.initiator, e.tag, 0, BitVec.ofNat 7 e.length,
                     Vector.ofFn
                       (fun k : Fin 64 => if k.val < e.length ∧ k.val < r.dataCount.toNat then r.lanes[k] else 0)⟩
                 else ⟨e.initiator, e.tag, if r.code = 0 then 0 else 1, 0, Vector.replicate 64 0⟩] } }) ∧
    (s.forward = none ∨ (s.returnTurn = .decline ∧ declining) → exec .forwarding s = .next s) ∧
    (∀ j f c, oldest j f → f.code = some c → (s.returnTurn = .decline ∨ s.forward = none) →
      exec .declineSend s = .next
        { freed j f s with
          returnTurn := .forward
          sent :=
            { s.sent with
              upstream := s.sent.upstream ++ [⟨f.initiator, f.tag, c.value, 0, Vector.replicate 64 0⟩] } }) ∧
    (¬declining → exec .declineSend s = .next s) ∧
    (∀ i e r, waits i e r → s.returnTurn = .forward → exec .declineSend s = .next s)

/-! ## The hold pool's own events -/

/-- RE_EXAMINATION decides the STALLED entry again by its captured list and wake permission, its own held count left out:
it passes, is held where room exists, stays STALLED, or is declined (R80, R85, R95, R96, R97). That it is taken only where
one has been prompted, once for each prompt, is the model's choice (log 15). -/
def Obligations.ReExaminationDecidesAgain : Prop :=
  ∀ (s : State) (i : EntryIdx) (e : Entry), s.inReset = false → s.stalled = some i → s.entry i = some e →
    let decided :=
      match e.list with
      | some (.domain d) => domainStep s d e.wakePermitted e.initiator 1
      | _ => openStep s e.initiator 1
    (s.prompts = 0 → exec .reExamination s = .next s) ∧
    (0 < s.prompts →
      (decided = .pass → e.counted = false →
        exec .reExamination s = .next
          (noticed e false
            (countedIn e
              { (placeGiven e.initiator s).setEntry i
                  (some { e with state := .passing, counted := e.domain?.isSome }) with
                stalled := none, prompts := 0, stage := some i }))) ∧
      (∀ reason l, decided = .hold reason → e.list = some l → RoomFor s e.initiator 1 →
        exec .reExamination s = .next
          (noticed e (reason == .wake)
            { (s.setEntry i (some { e with state := .held, reason := some reason })).setHeld l (s.held l ++ [i]) with
              stalled := none, prompts := 0 })) ∧
      (∀ reason, decided = .hold reason → ¬RoomFor s e.initiator 1 →
        exec .reExamination s = .next { s with prompts := s.prompts - 1 }) ∧
      ∀ c, decided = .decline c →
        exec .reExamination s = .next
          (declinedAt i e c { placeGiven e.initiator s with stalled := none, prompts := 0 }))

/-- A hold deadline that has passed declines the HELD entry from wherever it stands in its list, and the STALLED entry,
with HOLD_TIMEOUT; one that has not passed, or does not exist, does nothing (R91, R92). A row taken late acts as one taken
at once, which is the model's choice (log 5). -/
def Obligations.HoldDeadlinesDecline : Prop :=
  ∀ (s : State) (i : EntryIdx) (e : Entry), s.inReset = false → s.entry i = some e →
    (e.state = .held → DeadlinePassed e s.timebase →
      exec (.holdDeadlineExpiry i) s = .next
        (prompted (declinedAt i e .holdTimeout (placeGiven e.initiator (unlisted i s))))) ∧
    (e.state ≠ .held ∨ ¬DeadlinePassed e s.timebase → exec (.holdDeadlineExpiry i) s = .next s) ∧
    (s.stalled = some i → DeadlinePassed e s.timebase →
      exec .stallDeadlineExpiry s = .next
        (declinedAt i e .holdTimeout { placeGiven e.initiator s with stalled := none, prompts := 0 })) ∧
    (s.stalled = some i → ¬DeadlinePassed e s.timebase → exec .stallDeadlineExpiry s = .next s) ∧
    (s.stalled = none → exec .stallDeadlineExpiry s = .next s)

/-- A port reset discards every entry that has not reached memory, orphans every ISSUED one, drops a response that waits,
empties the hold pool and records PORT_RESET; it leaves the domain records but for their counts, and what R73 lists as left
(R3, R73, R75, R105, R146). That the waiting response is dropped in the same step, that the notices, steering claims and
switches on their way between blocks stay outstanding, that prompts are cleared with the STALLED entry, and that a drain whose
counts are then both 0 completes by its own row, are the model's choices (log 16, log 3, log 15, log 4). -/
def Obligations.PortResetDiscardsAndOrphans : Prop :=
  ∀ s : State, s.inReset = false → s.portReset = false →
    let reached (e : Entry) : Bool := e.state == .issued || e.state == .orphaned
    let answered (i : EntryIdx) : Bool := s.forward.any (fun r => r.tag.toNat == i.val)
    ∃ t, exec .portReset s = .next t ∧
      (∀ i e, s.entry i = some e →
        t.entry i =
          if answered i = true ∨ reached e = false then none else some { e with state := .orphaned }) ∧
      (∀ i, s.entry i = none → t.entry i = none) ∧
      (∀ d, ∃ k, t.dom d = { s.dom d with inFlight := (s.dom d).inFlight - k } ∧
        k = allEntries.countP (fun i =>
          (s.entry i).any (fun e => e.counted && e.domain? == some d && (answered i || !reached e)))) ∧
      (∀ l, t.held l = []) ∧ t.stalled = none ∧ t.prompts = 0 ∧ t.holdBudget = 0 ∧
      (∀ n, t.init n = { s.init n with heldCount := 0 }) ∧
      t.stage = none ∧ t.issueTurn = .release ∧ t.returnTurn = .forward ∧ t.forward = none ∧ t.portReset = true ∧
      t.events =
        (offer
          { plain .portReset s.timebase with
            detail := BitVec.ofNat 16 (s.countEntries (fun e => e.state == .issued))
            value := BitVec.ofNat 32 (s.countEntries (fun e => !reached e)) } s).events ∧
      t.windows = s.windows ∧ t.slots = s.slots ∧ t.nextHanding = s.nextHanding ∧ t.nextOrder = s.nextOrder ∧
      t.mode = s.mode ∧ t.timebase = s.timebase ∧ t.control = s.control ∧ t.port = s.port ∧ t.sent = s.sent ∧
      t.notices = s.notices ∧ t.claims = s.claims ∧ t.switches = s.switches ∧ t.pending = s.pending ∧
      t.inReset = false

/-! ## The domain controller's own events -/

/-- An arrival notice is taken by the state the domain controller finds (R7, R10, R12, R16, R48). That the earliest notice
of the domain is taken, and none where none is outstanding, and that a notice with both facts acts by the monitored one in
ACTIVE and DRAINING, are the model's choices (log 2, log 3, log 23). -/
def Obligations.ArrivalNoticeByState : Prop :=
  ∀ (s : State) (d : DomainId), s.inReset = false →
    (firstNotice s d = none → exec (.arrivalNotice d) s = .next s) ∧
    ∀ n, firstNotice s d = some n →
      let u := withoutNotice s d
      exec (.arrivalNotice d) s = .next
        (match (s.dom d).state with
         | .active =>
           if n.monitored = true ∧ (s.dom d).idleTimer ≠ none then
             u.setDom d { s.dom d with idleTimer := idleFull s (s.dom d) }
           else u
         | .draining => if n.monitored = true then active d u else u
         | .entering => if n.wake = true then u.setDom d { s.dom d with wakePending := true } else u
         | .low => if n.wake = true then waking d u else u
         | .exiting => u
         | .fault => u)

/-- The idle timer's expiry starts a drain, a drain with both counts 0 completes, the deep timer's expiry steps a domain
to OFF, and the timebase advances by one modulo 2^32 (R4, R8, R9, R11, R15, R153). That an expiry may be taken late,
that a row whose condition fails changes nothing, that an idle expiry leaves the completion to its own row, and that a target
of OFF is handed as RETAIN where discardable is clear, are the model's choices (log 2, log 4, log 5, log 13). -/
def Obligations.TimersAndDrains : Prop :=
  ∀ (s : State) (d : DomainId), s.inReset = false →
    let x := s.dom d
    let due (t : Timer) := t.limit ≤ (s.timebase - t.load).toNat
    ((x.state = .active ∧ ∃ t, x.idleTimer = some t ∧ due t) →
      exec (.idleTimerExpiry d) s = .next (draining d (if x.pin = .holdLow then x.pinLevel else .retain) s)) ∧
    (¬(x.state = .active ∧ ∃ t, x.idleTimer = some t ∧ due t) → exec (.idleTimerExpiry d) s = .next s) ∧
    ((x.state = .draining ∧ x.inFlight = 0 ∧ s.held (.domain d) = []) →
      exec (.drainCompletion d) s = .next (lowering d (if x.discardable = true then x.level else .retain) s)) ∧
    (¬(x.state = .draining ∧ x.inFlight = 0 ∧ s.held (.domain d) = []) → exec (.drainCompletion d) s = .next s) ∧
    ((x.state = .low ∧ x.level = .retain ∧ x.discardable = true ∧ ∃ t, x.deepTimer = some t ∧ due t) →
      exec (.deepTimerExpiry d) s = .next (lowering d .off s)) ∧
    (¬(x.state = .low ∧ x.level = .retain ∧ ∃ t, x.deepTimer = some t ∧ due t) →
      exec (.deepTimerExpiry d) s = .next s) ∧
    exec .timebaseAdvance s = .next { s with timebase := s.timebase + 1 }

/-- The ack timer's expiry abandons the command: the slot is emptied, the domain enters FAULT, its HELD and STALLED entries
are declined DOMAIN_FAULT and ACK_TIMEOUT is recorded (R19, R101, R121, R145, R148). That the expiry may be taken late, and
that a row not due changes nothing, are the model's choices (log 2, log 5). -/
def Obligations.AckTimerExpiryFaults : Prop :=
  ∀ (s : State) (d : DomainId), s.inReset = false →
    let x := s.dom d
    (∀ t, x.ackTimer = some t → t.limit ≤ (s.timebase - t.load).toNat →
      exec (.ackTimerExpiry d) s = .next
        (offer
          { plain .ackTimeout s.timebase with
            domain := some d
            code := if x.state = .exiting then 2 else 1
            detail := BitVec.ofNat 16 (massDeclineCount d (fun _ => true) (fun _ => true) s)
            value := match s.slot d with
              | .taken _ => 1
              | _ => 0 }
          (massDecline d (fun _ => true) (fun _ => true) .domainFault
            ((s.setSlot d .empty).setDom d
              { x with state := .fault, idleTimer := none, deepTimer := none, ackTimer := none
                       wakePending := false })))) ∧
    (∀ t, x.ackTimer = some t → ¬t.limit ≤ (s.timebase - t.load).toNat → exec (.ackTimerExpiry d) s = .next s) ∧
    (x.ackTimer = none → exec (.ackTimerExpiry d) s = .next s)

/-- The switch to GOVERNING is taken once for each domain: its idle timer is reloaded, and a stored HOLD_LOW pin puts it in
DRAINING, or in ENTERING with its LOWER handed where both counts are 0 (R9, R11, R32, R164). A domain that has left ACTIVE
takes it without effect, the completion is in the same step, and a pin level of OFF is handed as RETAIN where discardable is
clear: the model's choices (log 4, log 13, log 14). -/
def Obligations.GoverningSwitchByPin : Prop :=
  ∀ (s : State) (d : DomainId), s.inReset = false →
    (d ∉ s.switches → exec (.governingSwitchTaken d) s = .next s) ∧
    (d ∈ s.switches →
      let x := s.dom d
      let u := { s with switches := s.switches.filter (fun c => c != d) }
      exec (.governingSwitchTaken d) s = .next
        (if s.mode = .governing ∧ x.state = .active then
           if x.pin = .holdLow then
             if x.inFlight = 0 ∧ s.held (.domain d) = [] then
               lowering d (if x.discardable = true then x.pinLevel else .retain) u
             else draining d x.pinLevel u
           else u.setDom d { x with idleTimer := idleFull s x }
         else u))

/-- A KEEP claim reloads the idle timer in ACTIVE, cancels a drain whatever the pin, and is spent elsewhere, and in
TRANSPARENT mode (R133, R134). That the domain's earliest claim is taken is the model's choice (log 3). -/
def Obligations.KeepClaimTaken : Prop :=
  ∀ (s : State) (d : DomainId), s.inReset = false →
    (firstClaim s .keep d = none → exec (.keepClaim d) s = .next s) ∧
    ∀ c, firstClaim s .keep d = some c →
      let u := withoutClaim s .keep d
      (s.mode = .transparent → exec (.keepClaim d) s = .next u) ∧
      (s.mode = .governing →
        exec (.keepClaim d) s = .next
          (match (s.dom d).state with
           | .active => u.setDom d { s.dom d with idleTimer := idleFull s (s.dom d) }
           | .draining => active d u
           | .entering => u
           | .low => u
           | .exiting => u
           | .fault => u))

/-- A RAISE claim is taken like the RAISE action, but it acts on the pin in every state and is ignored with a record where
the action would be refused (R135, R138); in TRANSPARENT mode it is spent (R133). That the domain's earliest claim is taken,
and that EXITING comes before the pin, are the model's choices (log 3, log 13). -/
def Obligations.RaiseClaimTaken : Prop :=
  ∀ (s : State) (d : DomainId), s.inReset = false →
    (firstClaim s .raise d = none → exec (.raiseClaim d) s = .next s) ∧
    ∀ c, firstClaim s .raise d = some c →
      let u := withoutClaim s .raise d
      (s.mode = .transparent → exec (.raiseClaim d) s = .next u) ∧
      (s.mode = .governing →
        exec (.raiseClaim d) s = .next
          (if (s.dom d).state = .fault then offer (ignoredEvent c 4 s.timebase) u
           else if (s.dom d).state = .exiting then u
           else if (s.dom d).pin = .holdLow then offer (ignoredEvent c 3 s.timebase) u
           else raised d u))

/-! ## The power channel -/

/-- COMMAND_TRANSFER takes the WAITING command that was handed earliest, which the part presents in the encoding of the
command direction; its slot becomes TAKEN (R114, R116, R188). -/
def Obligations.EarliestCommandTransferred : Prop :=
  ∀ s : State, s.inReset = false →
    (∀ d c n, s.slot d = .waiting c n →
      (∀ d' c' n', d' ≠ d → s.slot d' = .waiting c' n' → n < n') →
        s.commandDriven = some (driven d c) ∧
        exec .commandTransfer s = .next
          { s.setSlot d (.taken c) with sent := { s.sent with commands := s.sent.commands ++ [driven d c] } }) ∧
    ((∀ d c n, s.slot d ≠ .waiting c n) → s.commandDriven = none ∧ exec .commandTransfer s = .next s)

/-- An acknowledge of a TAKEN command empties the slot and is delivered: DONE and REFUSED for LOWER and for RAISE (R5, R13,
R14, R15, R17, R18, R100, R102, R118, R145, R148). That a state which no run reaches acts by the slot's command is the
model's choice (log 13). -/
def Obligations.AcknowledgesDelivered : Prop :=
  ∀ (s : State) (d : DomainId), s.inReset = false →
    let x := s.dom d
    let e := s.setSlot d .empty
    let low := e.setDom d { x with state := .low, idleTimer := none, deepTimer := none, ackTimer := none
                                   wakePending := false }
    let level : BitVec 16 := if x.level = .off then 1 else 0
    let settled (t : State) : State :=
      t.setDom d { t.dom d with deepTimer := if x.level = .retain then deepFull s (t.dom d) else none }
    (∀ l, s.slot d = .taken (.lower l) →
      let reported := offer { plain .domainLow s.timebase with domain := some d, detail := level } low
      let cleared :=
        if x.level = .off then
          massDecline d (fun e => e.guarded) (fun e => e.guarded) .contentLost
            (reported.setDom d { reported.dom d with contentsValid := false })
        else reported
      exec (.acknowledge .done d) s = .next (if x.wakePending = true then waking d cleared else settled cleared) ∧
      exec (.acknowledge .refused d) s = .next
        (offer { plain .lowerRefused s.timebase with domain := some d, detail := level } (active d e))) ∧
    (s.slot d = .taken .raise →
      exec (.acknowledge .done d) s = .next
        (offer
          { plain .domainActive s.timebase with
            domain := some d
            detail := BitVec.ofNat 16 (s.held (.domain d)).length
            value := s.timebase - x.wakeStart }
          (active d e)) ∧
      exec (.acknowledge .refused d) s = .next
        (settled
          (offer
            { plain .raiseRefused s.timebase with
              domain := some d
              detail := BitVec.ofNat 16 (s.held (.domain d)).length }
            (massDecline d (fun _ => true) (fun _ => false) .wakeRefused low))))

/-- R122: an acknowledge that finds its slot EMPTY or WAITING is dropped, and STRAY_ACK is recorded with the acknowledge
and the slot's condition. -/
def Obligations.StrayAcknowledgeRecorded : Prop :=
  ∀ (s : State) (d : DomainId) (o : AckOutcome), s.inReset = false → (∀ c, s.slot d ≠ .taken c) →
    exec (.acknowledge o d) s = .next
      (offer
        { plain .strayAck s.timebase with
          domain := some d
          code := if o = .done then 1 else 2
          detail := if s.slot d = .empty then 0 else 1 }
        s)

/-! ## The laws of the device -/

/-- Every law of `Kept` holds after power-on reset. -/
def Obligations.LawsHoldAtReset : Prop :=
  Kept State.reset

/-- Every step keeps the law of the event queue (R141). -/
def Obligations.StepKeepsQueueLaw : Prop :=
  ∀ s t : State, QueueKept s → step s = .next t → QueueKept t

/-- Every step keeps the law that a domain has one power command outstanding in ENTERING and EXITING and none elsewhere,
the order of handing, and wake-pending to ENTERING (R12, R114, R116). -/
def Obligations.StepKeepsOneCommandLaw : Prop :=
  ∀ s t : State, SlotsKept s ∧ HandingKept s ∧ WakePendingKept s → step s = .next t →
    SlotsKept t ∧ HandingKept t ∧ WakePendingKept t

/-- Every step keeps the hold pool in agreement with the transaction table: lists in the order of acceptance, the budget and
the held counts, one STALLED and one PASSING entry at most (R57, R60, R78, R80, R81, R84, R94). -/
def Obligations.StepKeepsPoolLaw : Prop :=
  ∀ s t : State, PoolKept s → step s = .next t → PoolKept t

/-- Every step keeps each timer running exactly under its conditions, and in TRANSPARENT mode every domain ACTIVE with its
contents valid and nothing held (R8, R15, R164, R165). -/
def Obligations.StepKeepsTimersAndTransparency : Prop :=
  ∀ s t : State, Kept s → step s = .next t → TimersKept t ∧ TransparentKept t ∧ TimersRunKept t

/-- Every step keeps a domain's in-flight count equal to the number of its entries PASSING, ISSUED or ORPHANED, and at 0
while the domain is ENTERING, LOW, EXITING or FAULT (R50, R70). -/
def Obligations.StepKeepsInFlightLaw : Prop :=
  ∀ s t : State, Kept s → step s = .next t → CountsKept t ∧ QuietKept t

/-- Every step keeps the law of the hold lists of sleeping domains (R110, R101). -/
def Obligations.StepKeepsHoldLaw : Prop :=
  ∀ s t : State, Kept s → step s = .next t → HoldLawKept t

/-- Every step keeps a PASSING entry alone in its list, and the contents of a domain valid while a guarded read of it waits
for its issue (R108, R111). -/
def Obligations.StepKeepsOrderAndGuards : Prop :=
  ∀ s t : State, Kept s → step s = .next t → PassAloneKept t ∧ GuardKept t

/-! ## Frames and signal groups -/

/-- The bytes of a frame spell one management command and a command's frame spells it back, the code and the action byte
naming it and its argument bytes as many as the command takes; and the fields of the request and acknowledge groups name what
they carry (R157, R160, R179, R184, R187, R188). That an action byte without a meaning is carried by RAISE_ACTION is the
model's choice (log 9). -/
def Obligations.FramesSpellCommands : Prop :=
  (∀ (i : Instr) (bytes : List Byte), i.wellFormed = true → i.frame = some bytes → frameCommand bytes = some i) ∧
  (∀ (bytes : List Byte) (i : Instr), frameCommand bytes = some i → i.wellFormed = true ∧ i.frame = some bytes) ∧
  (∀ (code : Byte) (arguments : List Byte),
    (frameCommand (code :: arguments)).isSome = true ↔
      arguments.length = (commandArguments code).getD 0) ∧
  (∀ d x : Byte,
    frameCommand [0x22, d, 1, x] = some (.raiseAction d 1 x) ∧ frameCommand [0x22, d, 2, x] = some (.lowerAction d x) ∧
    frameCommand [0x22, d, 3, x] = some (.clearFault d x) ∧ frameCommand [0x22, d, 4, x] = some (.validate d x) ∧
    frameCommand [0x22, d, 5, x] = some (.flush d x)) ∧
  (∀ x : Byte,
    frameCommand [0x01] = some .readStatus ∧ frameCommand [0x02, x] = some (.setMode x) ∧
    frameCommand [0x10, x] = some (.readWindow x) ∧ frameCommand [0x20, x] = some (.readDomain x) ∧
    frameCommand [0x30, x] = some (.listHeld x) ∧ frameCommand [0x38, x] = some (.readInitiator x) ∧
    frameCommand [0x40, x] = some (.popEvents x) ∧
    (∀ y z, frameCommand [0x39, x, y, z] = some (.writeInitiator x y z) ∧
      frameCommand [0x41, x, y, z] = some (.setEventControl x y z)) ∧
    (∀ r : Vector Byte 12, frameCommand (0x11 :: x :: r.toList) = some (.writeWindow x r)) ∧
    ∀ r : Vector Byte 8, frameCommand (0x21 :: x :: r.toList) = some (.writeDomain x r)) ∧
  (∀ r : Request,
    requestOf (BitVec.ofNat 4 r.initiator.val) r.tag (if r.direction = .write then 1 else 0)
      (if r.privilege = .privileged then 1 else 0) r.address r.length r.lanes = r) ∧
  ∀ d : DomainId,
    acknowledgeOf 0 (BitVec.ofNat 3 d.val) = .acknowledge .done d ∧
    acknowledgeOf 1 (BitVec.ofNat 3 d.val) = .acknowledge .refused d
end

