-- ==== Sys2Proof/Laws/State.lean ====
section
/-! SUPPORT. What a replaced record leaves of State: one lemma for each field and each update, true by rfl, and what reading
a record after replacing one gives. Later proofs rewrite with these and never unfold a record update. -/

namespace Sys2Proof.Machine

/-! ## A function over a table -/

@[simp] theorem mapTable_eq {α β : Type} {n : Nat} (f : α → β) (v : Vector α n) : mapTable f v = v.map f := by
  cases v
  simp only [mapTable, Vector.toList, Vector.map, Vector.mk.injEq]
  exact Array.ext' (by simp)

variable (s : State)

/-! ## setDom -/

@[simp] theorem State.setDom_pending (d : DomainId) (x : Domain) : (s.setDom d x).pending = s.pending := rfl
@[simp] theorem State.setDom_inReset (d : DomainId) (x : Domain) : (s.setDom d x).inReset = s.inReset := rfl
@[simp] theorem State.setDom_portReset (d : DomainId) (x : Domain) : (s.setDom d x).portReset = s.portReset := rfl
@[simp] theorem State.setDom_mode (d : DomainId) (x : Domain) : (s.setDom d x).mode = s.mode := rfl
@[simp] theorem State.setDom_timebase (d : DomainId) (x : Domain) : (s.setDom d x).timebase = s.timebase := rfl
@[simp] theorem State.setDom_windows (d : DomainId) (x : Domain) : (s.setDom d x).windows = s.windows := rfl
@[simp] theorem State.setDom_slots (d : DomainId) (x : Domain) : (s.setDom d x).slots = s.slots := rfl
@[simp] theorem State.setDom_nextHanding (d : DomainId) (x : Domain) : (s.setDom d x).nextHanding = s.nextHanding := rfl
@[simp] theorem State.setDom_table (d : DomainId) (x : Domain) : (s.setDom d x).table = s.table := rfl
@[simp] theorem State.setDom_nextOrder (d : DomainId) (x : Domain) : (s.setDom d x).nextOrder = s.nextOrder := rfl
@[simp] theorem State.setDom_stage (d : DomainId) (x : Domain) : (s.setDom d x).stage = s.stage := rfl
@[simp] theorem State.setDom_issueTurn (d : DomainId) (x : Domain) : (s.setDom d x).issueTurn = s.issueTurn := rfl
@[simp] theorem State.setDom_returnTurn (d : DomainId) (x : Domain) : (s.setDom d x).returnTurn = s.returnTurn := rfl
@[simp] theorem State.setDom_forward (d : DomainId) (x : Domain) : (s.setDom d x).forward = s.forward := rfl
@[simp] theorem State.setDom_domainLists (d : DomainId) (x : Domain) : (s.setDom d x).domainLists = s.domainLists := rfl
@[simp] theorem State.setDom_openList (d : DomainId) (x : Domain) : (s.setDom d x).openList = s.openList := rfl
@[simp] theorem State.setDom_stalled (d : DomainId) (x : Domain) : (s.setDom d x).stalled = s.stalled := rfl
@[simp] theorem State.setDom_holdBudget (d : DomainId) (x : Domain) : (s.setDom d x).holdBudget = s.holdBudget := rfl
@[simp] theorem State.setDom_initiators (d : DomainId) (x : Domain) : (s.setDom d x).initiators = s.initiators := rfl
@[simp] theorem State.setDom_prompts (d : DomainId) (x : Domain) : (s.setDom d x).prompts = s.prompts := rfl
@[simp] theorem State.setDom_notices (d : DomainId) (x : Domain) : (s.setDom d x).notices = s.notices := rfl
@[simp] theorem State.setDom_claims (d : DomainId) (x : Domain) : (s.setDom d x).claims = s.claims := rfl
@[simp] theorem State.setDom_switches (d : DomainId) (x : Domain) : (s.setDom d x).switches = s.switches := rfl
@[simp] theorem State.setDom_events (d : DomainId) (x : Domain) : (s.setDom d x).events = s.events := rfl
@[simp] theorem State.setDom_control (d : DomainId) (x : Domain) : (s.setDom d x).control = s.control := rfl
@[simp] theorem State.setDom_port (d : DomainId) (x : Domain) : (s.setDom d x).port = s.port := rfl
@[simp] theorem State.setDom_sent (d : DomainId) (x : Domain) : (s.setDom d x).sent = s.sent := rfl

@[simp] theorem State.setDom_slot (d : DomainId) (x : Domain) (c : DomainId) : (s.setDom d x).slot c = s.slot c := rfl
@[simp] theorem State.setDom_win (d : DomainId) (x : Domain) (w' : WindowId) : (s.setDom d x).win w' = s.win w' := rfl
@[simp] theorem State.setDom_init (d : DomainId) (x : Domain) (n' : InitiatorId) : (s.setDom d x).init n' = s.init n' := rfl
@[simp] theorem State.setDom_entry (d : DomainId) (x : Domain) (i' : EntryIdx) : (s.setDom d x).entry i' = s.entry i' := rfl
@[simp] theorem State.setDom_held (d : DomainId) (x : Domain) (l' : ListId) : (s.setDom d x).held l' = s.held l' := by cases l' <;> rfl

/-! ## setSlot -/

@[simp] theorem State.setSlot_pending (d : DomainId) (x : Slot) : (s.setSlot d x).pending = s.pending := rfl
@[simp] theorem State.setSlot_inReset (d : DomainId) (x : Slot) : (s.setSlot d x).inReset = s.inReset := rfl
@[simp] theorem State.setSlot_portReset (d : DomainId) (x : Slot) : (s.setSlot d x).portReset = s.portReset := rfl
@[simp] theorem State.setSlot_mode (d : DomainId) (x : Slot) : (s.setSlot d x).mode = s.mode := rfl
@[simp] theorem State.setSlot_timebase (d : DomainId) (x : Slot) : (s.setSlot d x).timebase = s.timebase := rfl
@[simp] theorem State.setSlot_windows (d : DomainId) (x : Slot) : (s.setSlot d x).windows = s.windows := rfl
@[simp] theorem State.setSlot_domains (d : DomainId) (x : Slot) : (s.setSlot d x).domains = s.domains := rfl
@[simp] theorem State.setSlot_nextHanding (d : DomainId) (x : Slot) : (s.setSlot d x).nextHanding = s.nextHanding := rfl
@[simp] theorem State.setSlot_table (d : DomainId) (x : Slot) : (s.setSlot d x).table = s.table := rfl
@[simp] theorem State.setSlot_nextOrder (d : DomainId) (x : Slot) : (s.setSlot d x).nextOrder = s.nextOrder := rfl
@[simp] theorem State.setSlot_stage (d : DomainId) (x : Slot) : (s.setSlot d x).stage = s.stage := rfl
@[simp] theorem State.setSlot_issueTurn (d : DomainId) (x : Slot) : (s.setSlot d x).issueTurn = s.issueTurn := rfl
@[simp] theorem State.setSlot_returnTurn (d : DomainId) (x : Slot) : (s.setSlot d x).returnTurn = s.returnTurn := rfl
@[simp] theorem State.setSlot_forward (d : DomainId) (x : Slot) : (s.setSlot d x).forward = s.forward := rfl
@[simp] theorem State.setSlot_domainLists (d : DomainId) (x : Slot) : (s.setSlot d x).domainLists = s.domainLists := rfl
@[simp] theorem State.setSlot_openList (d : DomainId) (x : Slot) : (s.setSlot d x).openList = s.openList := rfl
@[simp] theorem State.setSlot_stalled (d : DomainId) (x : Slot) : (s.setSlot d x).stalled = s.stalled := rfl
@[simp] theorem State.setSlot_holdBudget (d : DomainId) (x : Slot) : (s.setSlot d x).holdBudget = s.holdBudget := rfl
@[simp] theorem State.setSlot_initiators (d : DomainId) (x : Slot) : (s.setSlot d x).initiators = s.initiators := rfl
@[simp] theorem State.setSlot_prompts (d : DomainId) (x : Slot) : (s.setSlot d x).prompts = s.prompts := rfl
@[simp] theorem State.setSlot_notices (d : DomainId) (x : Slot) : (s.setSlot d x).notices = s.notices := rfl
@[simp] theorem State.setSlot_claims (d : DomainId) (x : Slot) : (s.setSlot d x).claims = s.claims := rfl
@[simp] theorem State.setSlot_switches (d : DomainId) (x : Slot) : (s.setSlot d x).switches = s.switches := rfl
@[simp] theorem State.setSlot_events (d : DomainId) (x : Slot) : (s.setSlot d x).events = s.events := rfl
@[simp] theorem State.setSlot_control (d : DomainId) (x : Slot) : (s.setSlot d x).control = s.control := rfl
@[simp] theorem State.setSlot_port (d : DomainId) (x : Slot) : (s.setSlot d x).port = s.port := rfl
@[simp] theorem State.setSlot_sent (d : DomainId) (x : Slot) : (s.setSlot d x).sent = s.sent := rfl

@[simp] theorem State.setSlot_dom (d : DomainId) (x : Slot) (c : DomainId) : (s.setSlot d x).dom c = s.dom c := rfl
@[simp] theorem State.setSlot_win (d : DomainId) (x : Slot) (w' : WindowId) : (s.setSlot d x).win w' = s.win w' := rfl
@[simp] theorem State.setSlot_init (d : DomainId) (x : Slot) (n' : InitiatorId) : (s.setSlot d x).init n' = s.init n' := rfl
@[simp] theorem State.setSlot_entry (d : DomainId) (x : Slot) (i' : EntryIdx) : (s.setSlot d x).entry i' = s.entry i' := rfl
@[simp] theorem State.setSlot_held (d : DomainId) (x : Slot) (l' : ListId) : (s.setSlot d x).held l' = s.held l' := by cases l' <;> rfl

/-! ## setWin -/

@[simp] theorem State.setWin_pending (w : WindowId) (x : Window) : (s.setWin w x).pending = s.pending := rfl
@[simp] theorem State.setWin_inReset (w : WindowId) (x : Window) : (s.setWin w x).inReset = s.inReset := rfl
@[simp] theorem State.setWin_portReset (w : WindowId) (x : Window) : (s.setWin w x).portReset = s.portReset := rfl
@[simp] theorem State.setWin_mode (w : WindowId) (x : Window) : (s.setWin w x).mode = s.mode := rfl
@[simp] theorem State.setWin_timebase (w : WindowId) (x : Window) : (s.setWin w x).timebase = s.timebase := rfl
@[simp] theorem State.setWin_domains (w : WindowId) (x : Window) : (s.setWin w x).domains = s.domains := rfl
@[simp] theorem State.setWin_slots (w : WindowId) (x : Window) : (s.setWin w x).slots = s.slots := rfl
@[simp] theorem State.setWin_nextHanding (w : WindowId) (x : Window) : (s.setWin w x).nextHanding = s.nextHanding := rfl
@[simp] theorem State.setWin_table (w : WindowId) (x : Window) : (s.setWin w x).table = s.table := rfl
@[simp] theorem State.setWin_nextOrder (w : WindowId) (x : Window) : (s.setWin w x).nextOrder = s.nextOrder := rfl
@[simp] theorem State.setWin_stage (w : WindowId) (x : Window) : (s.setWin w x).stage = s.stage := rfl
@[simp] theorem State.setWin_issueTurn (w : WindowId) (x : Window) : (s.setWin w x).issueTurn = s.issueTurn := rfl
@[simp] theorem State.setWin_returnTurn (w : WindowId) (x : Window) : (s.setWin w x).returnTurn = s.returnTurn := rfl
@[simp] theorem State.setWin_forward (w : WindowId) (x : Window) : (s.setWin w x).forward = s.forward := rfl
@[simp] theorem State.setWin_domainLists (w : WindowId) (x : Window) : (s.setWin w x).domainLists = s.domainLists := rfl
@[simp] theorem State.setWin_openList (w : WindowId) (x : Window) : (s.setWin w x).openList = s.openList := rfl
@[simp] theorem State.setWin_stalled (w : WindowId) (x : Window) : (s.setWin w x).stalled = s.stalled := rfl
@[simp] theorem State.setWin_holdBudget (w : WindowId) (x : Window) : (s.setWin w x).holdBudget = s.holdBudget := rfl
@[simp] theorem State.setWin_initiators (w : WindowId) (x : Window) : (s.setWin w x).initiators = s.initiators := rfl
@[simp] theorem State.setWin_prompts (w : WindowId) (x : Window) : (s.setWin w x).prompts = s.prompts := rfl
@[simp] theorem State.setWin_notices (w : WindowId) (x : Window) : (s.setWin w x).notices = s.notices := rfl
@[simp] theorem State.setWin_claims (w : WindowId) (x : Window) : (s.setWin w x).claims = s.claims := rfl
@[simp] theorem State.setWin_switches (w : WindowId) (x : Window) : (s.setWin w x).switches = s.switches := rfl
@[simp] theorem State.setWin_events (w : WindowId) (x : Window) : (s.setWin w x).events = s.events := rfl
@[simp] theorem State.setWin_control (w : WindowId) (x : Window) : (s.setWin w x).control = s.control := rfl
@[simp] theorem State.setWin_port (w : WindowId) (x : Window) : (s.setWin w x).port = s.port := rfl
@[simp] theorem State.setWin_sent (w : WindowId) (x : Window) : (s.setWin w x).sent = s.sent := rfl

@[simp] theorem State.setWin_dom (w : WindowId) (x : Window) (c : DomainId) : (s.setWin w x).dom c = s.dom c := rfl
@[simp] theorem State.setWin_slot (w : WindowId) (x : Window) (c : DomainId) : (s.setWin w x).slot c = s.slot c := rfl
@[simp] theorem State.setWin_init (w : WindowId) (x : Window) (n' : InitiatorId) : (s.setWin w x).init n' = s.init n' := rfl
@[simp] theorem State.setWin_entry (w : WindowId) (x : Window) (i' : EntryIdx) : (s.setWin w x).entry i' = s.entry i' := rfl
@[simp] theorem State.setWin_held (w : WindowId) (x : Window) (l' : ListId) : (s.setWin w x).held l' = s.held l' := by cases l' <;> rfl

/-! ## setInit -/

@[simp] theorem State.setInit_pending (n : InitiatorId) (x : Initiator) : (s.setInit n x).pending = s.pending := rfl
@[simp] theorem State.setInit_inReset (n : InitiatorId) (x : Initiator) : (s.setInit n x).inReset = s.inReset := rfl
@[simp] theorem State.setInit_portReset (n : InitiatorId) (x : Initiator) : (s.setInit n x).portReset = s.portReset := rfl
@[simp] theorem State.setInit_mode (n : InitiatorId) (x : Initiator) : (s.setInit n x).mode = s.mode := rfl
@[simp] theorem State.setInit_timebase (n : InitiatorId) (x : Initiator) : (s.setInit n x).timebase = s.timebase := rfl
@[simp] theorem State.setInit_windows (n : InitiatorId) (x : Initiator) : (s.setInit n x).windows = s.windows := rfl
@[simp] theorem State.setInit_domains (n : InitiatorId) (x : Initiator) : (s.setInit n x).domains = s.domains := rfl
@[simp] theorem State.setInit_slots (n : InitiatorId) (x : Initiator) : (s.setInit n x).slots = s.slots := rfl
@[simp] theorem State.setInit_nextHanding (n : InitiatorId) (x : Initiator) : (s.setInit n x).nextHanding = s.nextHanding := rfl
@[simp] theorem State.setInit_table (n : InitiatorId) (x : Initiator) : (s.setInit n x).table = s.table := rfl
@[simp] theorem State.setInit_nextOrder (n : InitiatorId) (x : Initiator) : (s.setInit n x).nextOrder = s.nextOrder := rfl
@[simp] theorem State.setInit_stage (n : InitiatorId) (x : Initiator) : (s.setInit n x).stage = s.stage := rfl
@[simp] theorem State.setInit_issueTurn (n : InitiatorId) (x : Initiator) : (s.setInit n x).issueTurn = s.issueTurn := rfl
@[simp] theorem State.setInit_returnTurn (n : InitiatorId) (x : Initiator) : (s.setInit n x).returnTurn = s.returnTurn := rfl
@[simp] theorem State.setInit_forward (n : InitiatorId) (x : Initiator) : (s.setInit n x).forward = s.forward := rfl
@[simp] theorem State.setInit_domainLists (n : InitiatorId) (x : Initiator) : (s.setInit n x).domainLists = s.domainLists := rfl
@[simp] theorem State.setInit_openList (n : InitiatorId) (x : Initiator) : (s.setInit n x).openList = s.openList := rfl
@[simp] theorem State.setInit_stalled (n : InitiatorId) (x : Initiator) : (s.setInit n x).stalled = s.stalled := rfl
@[simp] theorem State.setInit_holdBudget (n : InitiatorId) (x : Initiator) : (s.setInit n x).holdBudget = s.holdBudget := rfl
@[simp] theorem State.setInit_prompts (n : InitiatorId) (x : Initiator) : (s.setInit n x).prompts = s.prompts := rfl
@[simp] theorem State.setInit_notices (n : InitiatorId) (x : Initiator) : (s.setInit n x).notices = s.notices := rfl
@[simp] theorem State.setInit_claims (n : InitiatorId) (x : Initiator) : (s.setInit n x).claims = s.claims := rfl
@[simp] theorem State.setInit_switches (n : InitiatorId) (x : Initiator) : (s.setInit n x).switches = s.switches := rfl
@[simp] theorem State.setInit_events (n : InitiatorId) (x : Initiator) : (s.setInit n x).events = s.events := rfl
@[simp] theorem State.setInit_control (n : InitiatorId) (x : Initiator) : (s.setInit n x).control = s.control := rfl
@[simp] theorem State.setInit_port (n : InitiatorId) (x : Initiator) : (s.setInit n x).port = s.port := rfl
@[simp] theorem State.setInit_sent (n : InitiatorId) (x : Initiator) : (s.setInit n x).sent = s.sent := rfl

@[simp] theorem State.setInit_dom (n : InitiatorId) (x : Initiator) (c : DomainId) : (s.setInit n x).dom c = s.dom c := rfl
@[simp] theorem State.setInit_slot (n : InitiatorId) (x : Initiator) (c : DomainId) : (s.setInit n x).slot c = s.slot c := rfl
@[simp] theorem State.setInit_win (n : InitiatorId) (x : Initiator) (w' : WindowId) : (s.setInit n x).win w' = s.win w' := rfl
@[simp] theorem State.setInit_entry (n : InitiatorId) (x : Initiator) (i' : EntryIdx) : (s.setInit n x).entry i' = s.entry i' := rfl
@[simp] theorem State.setInit_held (n : InitiatorId) (x : Initiator) (l' : ListId) : (s.setInit n x).held l' = s.held l' := by cases l' <;> rfl

/-! ## setEntry -/

@[simp] theorem State.setEntry_pending (i : EntryIdx) (x : Option Entry) : (s.setEntry i x).pending = s.pending := rfl
@[simp] theorem State.setEntry_inReset (i : EntryIdx) (x : Option Entry) : (s.setEntry i x).inReset = s.inReset := rfl
@[simp] theorem State.setEntry_portReset (i : EntryIdx) (x : Option Entry) : (s.setEntry i x).portReset = s.portReset := rfl
@[simp] theorem State.setEntry_mode (i : EntryIdx) (x : Option Entry) : (s.setEntry i x).mode = s.mode := rfl
@[simp] theorem State.setEntry_timebase (i : EntryIdx) (x : Option Entry) : (s.setEntry i x).timebase = s.timebase := rfl
@[simp] theorem State.setEntry_windows (i : EntryIdx) (x : Option Entry) : (s.setEntry i x).windows = s.windows := rfl
@[simp] theorem State.setEntry_domains (i : EntryIdx) (x : Option Entry) : (s.setEntry i x).domains = s.domains := rfl
@[simp] theorem State.setEntry_slots (i : EntryIdx) (x : Option Entry) : (s.setEntry i x).slots = s.slots := rfl
@[simp] theorem State.setEntry_nextHanding (i : EntryIdx) (x : Option Entry) : (s.setEntry i x).nextHanding = s.nextHanding := rfl
@[simp] theorem State.setEntry_nextOrder (i : EntryIdx) (x : Option Entry) : (s.setEntry i x).nextOrder = s.nextOrder := rfl
@[simp] theorem State.setEntry_stage (i : EntryIdx) (x : Option Entry) : (s.setEntry i x).stage = s.stage := rfl
@[simp] theorem State.setEntry_issueTurn (i : EntryIdx) (x : Option Entry) : (s.setEntry i x).issueTurn = s.issueTurn := rfl
@[simp] theorem State.setEntry_returnTurn (i : EntryIdx) (x : Option Entry) : (s.setEntry i x).returnTurn = s.returnTurn := rfl
@[simp] theorem State.setEntry_forward (i : EntryIdx) (x : Option Entry) : (s.setEntry i x).forward = s.forward := rfl
@[simp] theorem State.setEntry_domainLists (i : EntryIdx) (x : Option Entry) : (s.setEntry i x).domainLists = s.domainLists := rfl
@[simp] theorem State.setEntry_openList (i : EntryIdx) (x : Option Entry) : (s.setEntry i x).openList = s.openList := rfl
@[simp] theorem State.setEntry_stalled (i : EntryIdx) (x : Option Entry) : (s.setEntry i x).stalled = s.stalled := rfl
@[simp] theorem State.setEntry_holdBudget (i : EntryIdx) (x : Option Entry) : (s.setEntry i x).holdBudget = s.holdBudget := rfl
@[simp] theorem State.setEntry_initiators (i : EntryIdx) (x : Option Entry) : (s.setEntry i x).initiators = s.initiators := rfl
@[simp] theorem State.setEntry_prompts (i : EntryIdx) (x : Option Entry) : (s.setEntry i x).prompts = s.prompts := rfl
@[simp] theorem State.setEntry_notices (i : EntryIdx) (x : Option Entry) : (s.setEntry i x).notices = s.notices := rfl
@[simp] theorem State.setEntry_claims (i : EntryIdx) (x : Option Entry) : (s.setEntry i x).claims = s.claims := rfl
@[simp] theorem State.setEntry_switches (i : EntryIdx) (x : Option Entry) : (s.setEntry i x).switches = s.switches := rfl
@[simp] theorem State.setEntry_events (i : EntryIdx) (x : Option Entry) : (s.setEntry i x).events = s.events := rfl
@[simp] theorem State.setEntry_control (i : EntryIdx) (x : Option Entry) : (s.setEntry i x).control = s.control := rfl
@[simp] theorem State.setEntry_port (i : EntryIdx) (x : Option Entry) : (s.setEntry i x).port = s.port := rfl
@[simp] theorem State.setEntry_sent (i : EntryIdx) (x : Option Entry) : (s.setEntry i x).sent = s.sent := rfl

@[simp] theorem State.setEntry_dom (i : EntryIdx) (x : Option Entry) (c : DomainId) : (s.setEntry i x).dom c = s.dom c := rfl
@[simp] theorem State.setEntry_slot (i : EntryIdx) (x : Option Entry) (c : DomainId) : (s.setEntry i x).slot c = s.slot c := rfl
@[simp] theorem State.setEntry_win (i : EntryIdx) (x : Option Entry) (w' : WindowId) : (s.setEntry i x).win w' = s.win w' := rfl
@[simp] theorem State.setEntry_init (i : EntryIdx) (x : Option Entry) (n' : InitiatorId) : (s.setEntry i x).init n' = s.init n' := rfl
@[simp] theorem State.setEntry_held (i : EntryIdx) (x : Option Entry) (l' : ListId) : (s.setEntry i x).held l' = s.held l' := by cases l' <;> rfl

/-! ## setHeld -/

@[simp] theorem State.setHeld_pending (l : ListId) (x : List EntryIdx) : (s.setHeld l x).pending = s.pending := by cases l <;> rfl
@[simp] theorem State.setHeld_inReset (l : ListId) (x : List EntryIdx) : (s.setHeld l x).inReset = s.inReset := by cases l <;> rfl
@[simp] theorem State.setHeld_portReset (l : ListId) (x : List EntryIdx) : (s.setHeld l x).portReset = s.portReset := by cases l <;> rfl
@[simp] theorem State.setHeld_mode (l : ListId) (x : List EntryIdx) : (s.setHeld l x).mode = s.mode := by cases l <;> rfl
@[simp] theorem State.setHeld_timebase (l : ListId) (x : List EntryIdx) : (s.setHeld l x).timebase = s.timebase := by cases l <;> rfl
@[simp] theorem State.setHeld_windows (l : ListId) (x : List EntryIdx) : (s.setHeld l x).windows = s.windows := by cases l <;> rfl
@[simp] theorem State.setHeld_domains (l : ListId) (x : List EntryIdx) : (s.setHeld l x).domains = s.domains := by cases l <;> rfl
@[simp] theorem State.setHeld_slots (l : ListId) (x : List EntryIdx) : (s.setHeld l x).slots = s.slots := by cases l <;> rfl
@[simp] theorem State.setHeld_nextHanding (l : ListId) (x : List EntryIdx) : (s.setHeld l x).nextHanding = s.nextHanding := by cases l <;> rfl
@[simp] theorem State.setHeld_table (l : ListId) (x : List EntryIdx) : (s.setHeld l x).table = s.table := by cases l <;> rfl
@[simp] theorem State.setHeld_nextOrder (l : ListId) (x : List EntryIdx) : (s.setHeld l x).nextOrder = s.nextOrder := by cases l <;> rfl
@[simp] theorem State.setHeld_stage (l : ListId) (x : List EntryIdx) : (s.setHeld l x).stage = s.stage := by cases l <;> rfl
@[simp] theorem State.setHeld_issueTurn (l : ListId) (x : List EntryIdx) : (s.setHeld l x).issueTurn = s.issueTurn := by cases l <;> rfl
@[simp] theorem State.setHeld_returnTurn (l : ListId) (x : List EntryIdx) : (s.setHeld l x).returnTurn = s.returnTurn := by cases l <;> rfl
@[simp] theorem State.setHeld_forward (l : ListId) (x : List EntryIdx) : (s.setHeld l x).forward = s.forward := by cases l <;> rfl
@[simp] theorem State.setHeld_stalled (l : ListId) (x : List EntryIdx) : (s.setHeld l x).stalled = s.stalled := by cases l <;> rfl
@[simp] theorem State.setHeld_holdBudget (l : ListId) (x : List EntryIdx) : (s.setHeld l x).holdBudget = s.holdBudget := by cases l <;> rfl
@[simp] theorem State.setHeld_initiators (l : ListId) (x : List EntryIdx) : (s.setHeld l x).initiators = s.initiators := by cases l <;> rfl
@[simp] theorem State.setHeld_prompts (l : ListId) (x : List EntryIdx) : (s.setHeld l x).prompts = s.prompts := by cases l <;> rfl
@[simp] theorem State.setHeld_notices (l : ListId) (x : List EntryIdx) : (s.setHeld l x).notices = s.notices := by cases l <;> rfl
@[simp] theorem State.setHeld_claims (l : ListId) (x : List EntryIdx) : (s.setHeld l x).claims = s.claims := by cases l <;> rfl
@[simp] theorem State.setHeld_switches (l : ListId) (x : List EntryIdx) : (s.setHeld l x).switches = s.switches := by cases l <;> rfl
@[simp] theorem State.setHeld_events (l : ListId) (x : List EntryIdx) : (s.setHeld l x).events = s.events := by cases l <;> rfl
@[simp] theorem State.setHeld_control (l : ListId) (x : List EntryIdx) : (s.setHeld l x).control = s.control := by cases l <;> rfl
@[simp] theorem State.setHeld_port (l : ListId) (x : List EntryIdx) : (s.setHeld l x).port = s.port := by cases l <;> rfl
@[simp] theorem State.setHeld_sent (l : ListId) (x : List EntryIdx) : (s.setHeld l x).sent = s.sent := by cases l <;> rfl
@[simp] theorem State.setHeld_dom (l : ListId) (x : List EntryIdx) (c : DomainId) : (s.setHeld l x).dom c = s.dom c := by cases l <;> rfl
@[simp] theorem State.setHeld_slot (l : ListId) (x : List EntryIdx) (c : DomainId) : (s.setHeld l x).slot c = s.slot c := by cases l <;> rfl
@[simp] theorem State.setHeld_win (l : ListId) (x : List EntryIdx) (w' : WindowId) : (s.setHeld l x).win w' = s.win w' := by cases l <;> rfl
@[simp] theorem State.setHeld_init (l : ListId) (x : List EntryIdx) (n' : InitiatorId) : (s.setHeld l x).init n' = s.init n' := by cases l <;> rfl
@[simp] theorem State.setHeld_entry (l : ListId) (x : List EntryIdx) (i' : EntryIdx) : (s.setHeld l x).entry i' = s.entry i' := by cases l <;> rfl

/-! ## Reading what was replaced -/

@[simp] theorem State.dom_setDom_same (d : DomainId) (x : Domain) : (s.setDom d x).dom d = x := by
  simp [State.dom, State.setDom]

theorem State.dom_setDom_ne {c d : DomainId} (h : c ≠ d) (x : Domain) : (s.setDom d x).dom c = s.dom c := by
  have h' : (d : Nat) ≠ c := fun e => h (Fin.ext e.symm)
  simp [State.dom, State.setDom, Vector.getElem_set_ne, h']

theorem State.dom_setDom (c d : DomainId) (x : Domain) : (s.setDom d x).dom c = if c = d then x else s.dom c := by
  split
  · subst c; simp
  · simp [State.dom_setDom_ne, *]

@[simp] theorem State.slot_setSlot_same (d : DomainId) (x : Slot) : (s.setSlot d x).slot d = x := by
  simp [State.slot, State.setSlot]

theorem State.slot_setSlot_ne {c d : DomainId} (h : c ≠ d) (x : Slot) : (s.setSlot d x).slot c = s.slot c := by
  have h' : (d : Nat) ≠ c := fun e => h (Fin.ext e.symm)
  simp [State.slot, State.setSlot, Vector.getElem_set_ne, h']

theorem State.slot_setSlot (c d : DomainId) (x : Slot) : (s.setSlot d x).slot c = if c = d then x else s.slot c := by
  split
  · subst c; simp
  · simp [State.slot_setSlot_ne, *]

@[simp] theorem State.win_setWin_same (w : WindowId) (x : Window) : (s.setWin w x).win w = x := by
  simp [State.win, State.setWin]

theorem State.win_setWin_ne {v w : WindowId} (h : v ≠ w) (x : Window) : (s.setWin w x).win v = s.win v := by
  have h' : (w : Nat) ≠ v := fun e => h (Fin.ext e.symm)
  simp [State.win, State.setWin, Vector.getElem_set_ne, h']

@[simp] theorem State.init_setInit_same (n : InitiatorId) (x : Initiator) : (s.setInit n x).init n = x := by
  simp [State.init, State.setInit]

theorem State.init_setInit_ne {m n : InitiatorId} (h : m ≠ n) (x : Initiator) :
    (s.setInit n x).init m = s.init m := by
  have h' : (n : Nat) ≠ m := fun e => h (Fin.ext e.symm)
  simp [State.init, State.setInit, Vector.getElem_set_ne, h']

theorem State.init_setInit (m n : InitiatorId) (x : Initiator) :
    (s.setInit n x).init m = if m = n then x else s.init m := by
  split
  · subst m; simp
  · simp [State.init_setInit_ne, *]

@[simp] theorem State.entry_setEntry_same (i : EntryIdx) (x : Option Entry) : (s.setEntry i x).entry i = x := by
  simp [State.entry, State.setEntry]

theorem State.entry_setEntry_ne {j i : EntryIdx} (h : j ≠ i) (x : Option Entry) :
    (s.setEntry i x).entry j = s.entry j := by
  have h' : (i : Nat) ≠ j := fun e => h (Fin.ext e.symm)
  simp [State.entry, State.setEntry, Vector.getElem_set_ne, h']

theorem State.entry_setEntry (j i : EntryIdx) (x : Option Entry) :
    (s.setEntry i x).entry j = if j = i then x else s.entry j := by
  split
  · subst j; simp
  · simp [State.entry_setEntry_ne, *]

@[simp] theorem State.held_setHeld_same (l : ListId) (x : List EntryIdx) : (s.setHeld l x).held l = x := by
  cases l <;> simp [State.held, State.setHeld]

theorem State.held_setHeld_ne {k l : ListId} (h : k ≠ l) (x : List EntryIdx) : (s.setHeld l x).held k = s.held k := by
  cases k <;> cases l <;> simp_all [State.held, State.setHeld]
  rename_i a b
  have h' : (b : Nat) ≠ a := fun e => h (Fin.ext e.symm)
  simp [Vector.getElem_set_ne, h']

/-- Two states with the same fields are one. -/
theorem State.setDom_setDom (d : DomainId) (x y : Domain) : (s.setDom d x).setDom d y = s.setDom d y := by
  simp [State.setDom, Vector.set_set]

theorem State.setDom_self (d : DomainId) : s.setDom d (s.dom d) = s := by
  simp [State.setDom, State.dom]

theorem State.setEntry_setEntry (i : EntryIdx) (x y : Option Entry) :
    (s.setEntry i x).setEntry i y = s.setEntry i y := by
  simp [State.setEntry, Vector.set_set]

end Sys2Proof.Machine
end

