-- ==== Sys2Proof/Laws/Ops.lean ====
section
/-! SUPPORT. What each shared operation can do, said once: the fields it may change, as an equation with every other field
of State as it was, and what it leaves in the records it changes. Proofs about commands cite these and never unfold an
operation. -/

namespace Sys2Proof.Machine

/-! ## Outcomes -/

@[simp] theorem whileRunning_running {s t : State} (h : s.inReset = false) : whileRunning s t = .next t := by
  simp [whileRunning, h]

@[simp] theorem whileRunning_inReset {s t : State} (h : s.inReset = true) : whileRunning s t = .next s := by
  simp [whileRunning, h]

@[simp] theorem inFrame_open {c : Option Command} {s t : State} (h : s.awaits c = true) : inFrame c s t = .next t := by
  simp [inFrame, h]

@[simp] theorem inFrame_closed {c : Option Command} {s t : State} (h : s.awaits c = false) : inFrame c s t = .next s := by
  simp [inFrame, h]

/-- In COMMAND the frame may be of any command, in ARGUMENTS of one (R156). -/
theorem awaits_iff (s : State) (c : Option Command) :
    s.awaits c = true ↔
      s.inReset = false ∧ (s.port.phase = .command ∨ ∃ a, c = some a ∧ s.port.phase = .arguments a) := by
  cases h : s.port.phase <;> simp [State.awaits, h]

/-- The eighth bit of byte 0 changes the phase alone. -/
theorem takeCode_eq (c : Command) (s : State) :
    takeCode c s =
      { s with port := { s.port with phase := if c.arguments = 0 then s.port.phase else .arguments c } } := by
  unfold takeCode
  split <;> rfl

/-- An executed frame leaves the port in RESULT with its status and result bytes (R157). -/
theorem reply_eq (status : Status) (bytes : List Byte) (s : State) :
    reply status bytes s = { s with port := ⟨.result, s.port.aborted, status.value :: bytes, 0⟩ } := rfl

/-! ## Recording events -/

theorem offer_eq (e : Event) (s : State) :
    offer e s = { s with events := if s.control.records e.kind then enqueue s.events e else s.events } := by
  unfold offer
  split <;> rfl

/-- The four things the queue can do with a record (R141). -/
theorem enqueue_cases (q : List Event) (e : Event) :
    (q.length < 63 ∧ enqueue q e = q ++ [e]) ∨
    (63 ≤ q.length ∧ ∃ front last, q = front ++ [last] ∧ last.kind = .overflow ∧ enqueue q e = front ++ [countLoss last]) ∨
    (q.length = 63 ∧ (∀ last ∈ q.getLast?, last.kind ≠ .overflow) ∧ enqueue q e = q ++ [overflowRecord e]) ∨
    (63 < q.length ∧ (∀ last ∈ q.getLast?, last.kind ≠ .overflow) ∧ enqueue q e = q) := by
  unfold enqueue
  split
  · rename_i h
    exact .inl ⟨h, rfl⟩
  · rename_i h
    have h63 : 63 ≤ q.length := Nat.le_of_not_lt h
    rcases List.eq_nil_or_concat q with rfl | ⟨front, last, rfl⟩
    · simp at h63
    · simp only [List.concat_eq_append, List.getLast?_concat, List.dropLast_concat]
      split
      · rename_i hk
        exact .inr (.inl ⟨by simpa using h63, front, last, rfl, hk, rfl⟩)
      · rename_i hk
        simp only [List.concat_eq_append, List.length_append, List.length_cons, List.length_nil] at h63
        by_cases hl : front.length + 1 = 63
        · exact .inr (.inr (.inl ⟨by simpa using hl, by simpa using hk, by simp [hl, Config.ordinaryRecords]⟩))
        · exact .inr (.inr (.inr ⟨by simp; omega, by simpa using hk, by simp [hl, Config.ordinaryRecords]⟩))

@[simp] theorem countLoss_kind (o : Event) : (countLoss o).kind = o.kind := rfl

/-! ## In-flight counting -/

/-- The entry after it has become counted. -/
def Entry.countedIn (e : Entry) : Entry :=
  { e with counted := e.counted || e.domain?.isSome }

theorem countIn_frame (i : EntryIdx) (s : State) :
    ∃ table domains, countIn i s = { s with table := table, domains := domains } := by
  unfold countIn
  split
  · split
    · split
      · exact ⟨_, _, rfl⟩
      · exact ⟨_, _, rfl⟩
    · exact ⟨_, _, rfl⟩
  · exact ⟨_, _, rfl⟩

theorem countIn_entry (i j : EntryIdx) (s : State) :
    (countIn i s).entry j = if j = i then (s.entry i).map Entry.countedIn else s.entry j := by
  unfold countIn
  by_cases hj : j = i
  · subst hj
    cases he : s.entry j with
    | none => simp [he]
    | some e =>
      cases hd : e.domain? with
      | none => simp [he, hd, Entry.countedIn]
      | some d =>
        by_cases hc : e.counted = true
        · cases e; simp_all [Entry.countedIn]
        · simp [hd, hc, Entry.countedIn]
  · cases he : s.entry i with
    | none => simp [hj]
    | some e =>
      cases hd : e.domain? with
      | none => simp [hd, hj]
      | some d => by_cases hc : e.counted = true <;> simp [hd, hc, State.entry_setEntry, hj]

/-- The counts are moved by the entry's own domain alone, and only where it was not counted yet. -/
theorem countIn_dom (i : EntryIdx) (d : DomainId) (s : State) :
    (countIn i s).dom d =
      if (s.entry i).any (fun e => e.domain? == some d && !e.counted) then
        { s.dom d with inFlight := (s.dom d).inFlight + 1 }
      else s.dom d := by
  unfold countIn
  cases he : s.entry i with
  | none => simp
  | some e =>
    cases hd : e.domain? with
    | none => simp [hd]
    | some c =>
      by_cases hc : e.counted = true
      · simp [hd, hc]
      · by_cases hcd : c = d
        · subst hcd; simp [hd, hc]
        · simp [hd, hc, hcd, State.dom_setDom, Ne.symm hcd]

theorem freeEntry_frame (i : EntryIdx) (s : State) :
    ∃ table domains, freeEntry i s = { s with table := table, domains := domains } := by
  unfold freeEntry
  split
  · split
    · split
      · exact ⟨_, _, rfl⟩
      · exact ⟨_, _, rfl⟩
    · exact ⟨_, _, rfl⟩
  · exact ⟨_, _, rfl⟩

theorem freeEntry_entry (i j : EntryIdx) (s : State) :
    (freeEntry i s).entry j = if j = i then none else s.entry j := by
  unfold freeEntry
  by_cases hj : j = i
  · subst hj
    cases he : s.entry j with
    | none => simp [he]
    | some e =>
      cases hd : e.domain? with
      | none => simp [hd]
      | some d => by_cases hc : e.counted = true <;> simp [hd, hc]
  · cases he : s.entry i with
    | none => simp [hj]
    | some e =>
      cases hd : e.domain? with
      | none => simp [hd, State.entry_setEntry, hj]
      | some d => by_cases hc : e.counted = true <;> simp [hd, hc, State.entry_setEntry, hj]

theorem freeEntry_dom (i : EntryIdx) (d : DomainId) (s : State) :
    (freeEntry i s).dom d =
      if (s.entry i).any (fun e => e.domain? == some d && e.counted) then
        { s.dom d with inFlight := (s.dom d).inFlight - 1 }
      else s.dom d := by
  unfold freeEntry
  cases he : s.entry i with
  | none => simp
  | some e =>
    cases hd : e.domain? with
    | none => simp [hd]
    | some c =>
      by_cases hc : e.counted = true
      · by_cases hcd : c = d
        · subst hcd; simp [hd, hc]
        · simp [hd, hc, hcd, State.dom_setDom, Ne.symm hcd]
      · simp [hd, hc]

/-! ## The hold pool -/

theorem takePlace_eq (n : InitiatorId) (s : State) :
    takePlace n s =
      { s.setInit n { s.init n with heldCount := (s.init n).heldCount + 1 } with holdBudget := s.holdBudget + 1 } := rfl

theorem givePlace_eq (n : InitiatorId) (s : State) :
    givePlace n s =
      { s.setInit n { s.init n with heldCount := (s.init n).heldCount - 1 } with holdBudget := s.holdBudget - 1 } := rfl

theorem leaveLists_frame (i : EntryIdx) (s : State) :
    leaveLists i s =
      { s with domainLists := (leaveLists i s).domainLists, openList := (leaveLists i s).openList } := rfl

theorem leaveLists_held (i : EntryIdx) (s : State) (l : ListId) :
    (leaveLists i s).held l = (s.held l).filter (fun j => j != i) := by
  cases l <;> simp [leaveLists, State.held]

theorem leaveStall_eq (s : State) : leaveStall s = { s with stalled := none, prompts := 0 } := rfl

theorem prompt_eq (s : State) :
    prompt s = { s with prompts := if s.stalled.isSome then s.prompts + 1 else s.prompts } := by
  unfold prompt
  split <;> rfl

/-- The entry after it has become DECLINING with a code. -/
def Entry.declined (c : DeclineCode) (e : Entry) : Entry :=
  { e with state := .declining, code := some c, data := [] }

theorem decline_frame (i : EntryIdx) (c : DeclineCode) (s : State) :
    ∃ table events, decline i c s = { s with table := table, events := events } := by
  unfold decline
  split
  · simp only [offer_eq]
    split
    · exact ⟨_, _, rfl⟩
    · exact ⟨_, _, rfl⟩
  · exact ⟨_, _, rfl⟩

theorem decline_entry (i j : EntryIdx) (c : DeclineCode) (s : State) :
    (decline i c s).entry j = if j = i then (s.entry i).map (Entry.declined c) else s.entry j := by
  unfold decline
  by_cases hj : j = i
  · subst hj
    cases he : s.entry j with
    | none => simp [he]
    | some e =>
      by_cases hr : e.reportDeclines = true
      · simp only [hr, if_true, offer_eq]
        exact (State.entry_setEntry_same s j _).trans (by simp [Entry.declined, hr])
      · simp [hr, Entry.declined]
  · cases he : s.entry i with
    | none => simp [hj]
    | some e =>
      by_cases hr : e.reportDeclines = true
      · simp only [hr, if_true, offer_eq, hj, if_false]
        exact State.entry_setEntry_ne s hj _
      · simp [hr, State.entry_setEntry, hj]

theorem declineHeld_frame (c : DeclineCode) (s : State) (i : EntryIdx) :
    ∃ table events lists openList budget inits,
      declineHeld c s i =
        { s with
          table := table, events := events, domainLists := lists, openList := openList, holdBudget := budget
          initiators := inits } := by
  unfold declineHeld
  split
  · rename_i e _
    obtain ⟨t, v, h⟩ := decline_frame i c (givePlace e.initiator (leaveLists i s))
    exact ⟨t, v, _, _, _, _, h⟩
  · exact ⟨_, _, _, _, _, _, rfl⟩

theorem declineHeld_held (c : DeclineCode) (s : State) (i : EntryIdx) (l : ListId) :
    (declineHeld c s i).held l = (s.held l).filter (fun j => j != i) := by
  unfold declineHeld
  split
  · rename_i e _
    obtain ⟨t, v, h⟩ := decline_frame i c (givePlace e.initiator (leaveLists i s))
    rw [h]
    cases l <;> simp [givePlace, State.setInit, leaveLists, State.held]
  · exact leaveLists_held i s l

theorem declineHeld_entry (c : DeclineCode) (s : State) (i j : EntryIdx) :
    (declineHeld c s i).entry j = if j = i then (s.entry i).map (Entry.declined c) else s.entry j := by
  unfold declineHeld
  cases he : s.entry i with
  | none =>
    by_cases hj : j = i
    · subst hj; simpa [leaveLists, State.entry] using he
    · simp [hj, leaveLists, State.entry]
  | some e =>
    have hE : ∀ k, (givePlace e.initiator (leaveLists i s)).entry k = s.entry k := fun _ => rfl
    rw [decline_entry, hE, hE, he]

theorem declineStalled_frame (c : DeclineCode) (s : State) (i : EntryIdx) :
    ∃ table events budget inits,
      declineStalled c s i =
        { s with
          table := table, events := events, stalled := none, prompts := 0, holdBudget := budget
          initiators := inits } := by
  unfold declineStalled
  split
  · rename_i e _
    obtain ⟨t, v, h⟩ := decline_frame i c (givePlace e.initiator (leaveStall s))
    exact ⟨t, v, _, _, h⟩
  · exact ⟨_, _, _, _, rfl⟩

theorem declineStalled_entry (c : DeclineCode) (s : State) (i j : EntryIdx) :
    (declineStalled c s i).entry j = if j = i then (s.entry i).map (Entry.declined c) else s.entry j := by
  unfold declineStalled
  cases he : s.entry i with
  | none =>
    by_cases hj : j = i
    · subst hj; simpa [leaveStall, State.entry] using he
    · simp [hj, leaveStall, State.entry]
  | some e =>
    have hE : ∀ k, (givePlace e.initiator (leaveStall s)).entry k = s.entry k := fun _ => rfl
    rw [decline_entry, hE, hE, he]

theorem foldl_declineHeld_frame (c : DeclineCode) (is : List EntryIdx) (s : State) :
    ∃ table events lists openList budget inits,
      is.foldl (declineHeld c) s =
        { s with
          table := table, events := events, domainLists := lists, openList := openList, holdBudget := budget
          initiators := inits } := by
  induction is generalizing s with
  | nil => exact ⟨_, _, _, _, _, _, rfl⟩
  | cons i is ih =>
    obtain ⟨_, _, _, _, _, _, h⟩ := ih (declineHeld c s i)
    obtain ⟨_, _, _, _, _, _, h'⟩ := declineHeld_frame c s i
    exact ⟨_, _, _, _, _, _, by rw [List.foldl_cons, h, h']⟩

theorem foldl_declineHeld_held (c : DeclineCode) (is : List EntryIdx) (s : State) (l : ListId) :
    (is.foldl (declineHeld c) s).held l = (s.held l).filter (fun j => !is.contains j) := by
  induction is generalizing s with
  | nil => simp
  | cons i is ih =>
    rw [List.foldl_cons, ih, declineHeld_held, List.filter_filter]
    congr 1
    funext j
    cases h : j == i <;> simp_all

theorem selectedStalled_cases (d : DomainId) (sel : Entry → Bool) (s : State) :
    selectedStalled d sel s = [] ∨ ∃ i, s.stalled = some i ∧ selectedStalled d sel s = [i] := by
  unfold selectedStalled
  split
  · rename_i i hi
    split
    · split
      · exact .inr ⟨i, hi, rfl⟩
      · exact .inl rfl
    · exact .inl rfl
  · exact .inl rfl

/-- The fields a mass decline may change (R99). -/
theorem massDecline_frame (d : DomainId) (sel selStalled : Entry → Bool) (c : DeclineCode) (s : State) :
    ∃ table events lists openList stalled prompts budget inits,
      massDecline d sel selStalled c s =
        { s with
          table := table, events := events, domainLists := lists, openList := openList, stalled := stalled
          prompts := prompts, holdBudget := budget, initiators := inits } := by
  obtain ⟨_, _, _, _, _, _, h⟩ := foldl_declineHeld_frame c (selectedHeld d sel s) s
  simp only [massDecline]
  rw [h]
  rcases selectedStalled_cases d selStalled s with hs | ⟨i, _, hs⟩
  · rw [hs]
    simp only [List.foldl_nil, prompt_eq]
    split
    · exact ⟨_, _, _, _, _, _, _, _, rfl⟩
    · exact ⟨_, _, _, _, _, _, _, _, rfl⟩
  · rw [hs]
    simp only [List.foldl_cons, List.foldl_nil, prompt_eq]
    obtain ⟨_, _, _, _, h'⟩ := declineStalled_frame c _ i
    rw [h']
    split
    · exact ⟨_, _, _, _, _, _, _, _, rfl⟩
    · exact ⟨_, _, _, _, _, _, _, _, rfl⟩

theorem giveNotice_eq (e : Entry) (wake : Bool) (s : State) :
    giveNotice e wake s =
      { s with notices := s.notices ++ (e.domain?.toList.map (fun d => ⟨d, e.monitored, wake⟩)) } := by
  unfold giveNotice
  cases e.domain? <;> simp

theorem passEntry_frame (i : EntryIdx) (e : Entry) (s : State) :
    ∃ table domains, passEntry i e s = { s with table := table, domains := domains, stage := some i } := by
  unfold passEntry
  obtain ⟨_, _, h⟩ := countIn_frame i { s.setEntry i (some { e with state := .passing }) with stage := some i }
  exact ⟨_, _, h⟩

theorem joinList_frame (i : EntryIdx) (e : Entry) (r : HoldReason) (s : State) :
    ∃ table lists openList, joinList i e r s = { s with table := table, domainLists := lists, openList := openList } := by
  unfold joinList
  split
  · rename_i l _
    cases l <;> exact ⟨_, _, _, rfl⟩
  · exact ⟨_, _, _, rfl⟩

/-! ## The power channel and the domain state machine -/

theorem handCommand_eq (d : DomainId) (c : PowerCommand) (s : State) :
    handCommand d c s = { s.setSlot d (.waiting c s.nextHanding) with nextHanding := s.nextHanding + 1 } := rfl

theorem handLower_frame (d : DomainId) (l : Level) (s : State) :
    ∃ domains slots,
      handLower d l s = { s with domains := domains, slots := slots, nextHanding := s.nextHanding + 1 } :=
  ⟨_, _, rfl⟩

theorem handRaise_frame (d : DomainId) (s : State) :
    ∃ domains slots,
      handRaise d s = { s with domains := domains, slots := slots, nextHanding := s.nextHanding + 1 } :=
  ⟨_, _, rfl⟩

/-- LOWER at OFF leaves the part only while discardable is set (R4). -/
theorem handLower_slot (d : DomainId) (l : Level) (s : State) :
    (handLower d l s).slot d = .waiting (.lower (if (s.dom d).discardable then l else .retain)) s.nextHanding := by
  simp [handLower, handCommand, State.slot, State.setSlot, State.setDom]

theorem handRaise_slot (d : DomainId) (s : State) : (handRaise d s).slot d = .waiting .raise s.nextHanding := by
  simp [handRaise, handCommand, State.slot, State.setSlot, State.setDom]

theorem reloadIdle_frame (d : DomainId) (s : State) : ∃ domains, reloadIdle d s = { s with domains := domains } :=
  ⟨_, rfl⟩

theorem loadDeep_frame (d : DomainId) (s : State) : ∃ domains, loadDeep d s = { s with domains := domains } :=
  ⟨_, rfl⟩

theorem enterActive_frame (d : DomainId) (s : State) :
    ∃ domains,
      enterActive d s =
        { s with
          domains := domains
          issueTurn := if (s.held (.domain d)).isEmpty then s.issueTurn else .release } := by
  unfold enterActive
  cases (s.held (.domain d)).isEmpty <;> exact ⟨_, rfl⟩

theorem enterActive_dom (d : DomainId) (s : State) :
    (enterActive d s).dom d =
      { s.dom d with
        state := .active, deepTimer := none, ackTimer := none, wakePending := false
        idleTimer := idleLoaded s.mode s.timebase { s.dom d with state := .active } } := by
  have key : ∀ x : Domain,
      (reloadIdle d (s.setDom d x)).dom d = { x with idleTimer := idleLoaded s.mode s.timebase x } := fun x => by
    simp [reloadIdle]
  unfold enterActive
  split <;> exact (key _).trans (by simp [idleLoaded, idleRuns])

theorem enterDraining_frame (d : DomainId) (l : Level) (s : State) :
    ∃ domains, enterDraining d l s = { s with domains := domains } :=
  ⟨_, rfl⟩

theorem completeDrain_cases (d : DomainId) (s : State) :
    (s.drainComplete d = true ∧ completeDrain d s = handLower d (s.dom d).level s) ∨
    (s.drainComplete d = false ∧ completeDrain d s = s) := by
  unfold completeDrain
  cases h : s.drainComplete d <;> simp

theorem setWakePending_frame (d : DomainId) (s : State) :
    ∃ domains, setWakePending d s = { s with domains := domains } :=
  ⟨_, rfl⟩

/-- The fields a claim that asks for a domain to be up may change. -/
theorem takeUp_frame (d : DomainId) (s : State) :
    ∃ domains slots handing turn,
      takeUp d s = { s with domains := domains, slots := slots, nextHanding := handing, issueTurn := turn } := by
  unfold takeUp
  split
  · exact ⟨_, _, _, _, rfl⟩
  · obtain ⟨_, h⟩ := enterActive_frame d s
    exact ⟨_, _, _, _, h⟩
  · exact ⟨_, _, _, _, rfl⟩
  · exact ⟨_, _, _, _, rfl⟩
  · exact ⟨_, _, _, _, rfl⟩
  · exact ⟨_, _, _, _, rfl⟩

/-- The fields a steering word may change (R131, R133). -/
theorem takeSteeringWord_frame (w : WindowId) (r : Request) (s : State) :
    ∃ claims events, takeSteeringWord w r s = { s with claims := claims, events := events } := by
  unfold takeSteeringWord
  simp only [offer_eq]
  split
  · exact ⟨_, _, rfl⟩
  · exact ⟨_, _, rfl⟩
  · split <;> exact ⟨_, _, rfl⟩
  · exact ⟨_, _, rfl⟩

end Sys2Proof.Machine
end

