-- ==== Sys2Proof/Tests/Slice0.lean ====
section
/-! SUPPORT. Tests of the model against the manual's tables and worked examples, one step each, and for every statement that
has hypotheses a theorem that shows states and operands that meet them, clause by clause and at the boundary values. -/

namespace Sys2Proof.Tests

open Sys2Proof.Machine Sys2Proof.Claims

set_option maxRecDepth 4000

/-! ## States and operands the tests share -/

/-- The state after a command. -/
def after (c : Instr) (s : State) : State :=
  match exec c s with
  | .next t => t
  | _ => s

/-- The same state with a frame begun whose command has not been executed. -/
def opened (s : State) : State :=
  { s with port := { s.port with phase := .command } }

/-- Reset, switched to GOVERNING by every domain. -/
def governing : State :=
  { State.reset with mode := .governing }

/-- A frame begun in GOVERNING mode with a domain record of D2 in place. -/
def frameWith (x : Domain) : State :=
  opened (governing.setDom 2 x)

/-- The bytes a frame shifts out from byte 1 of its result on. -/
def answer (c : Instr) (s : State) : List Byte :=
  (after c s).resultBytes

/-- A read of 4 bytes at 0x1000 by initiator 1 with tag 7. -/
def request : Request where
  initiator := 1
  tag := 7
  direction := .read
  privilege := .privileged
  address := 0x1000
  length := 4
  lanes := Vector.replicate 64 0

/-- A window over the granule at 0x1000 in D0 with every permission. -/
def window : Window where
  enable := true
  kind := .memory
  base := 1
  mask := 0
  domain := 0
  readPrivileged := true
  writePrivileged := true
  readUnprivileged := true
  writeUnprivileged := true
  initiatorMask := 0xFFFF
  wakePermitted := true
  monitored := true
  guarded := true
  policy := .stall
  reportDeclines := true
  raisePermitted := true
  holdLimit := 20

/-- An entry of D0, accepted at timebase 0 with a hold deadline of 20. -/
def entry (x : EntryState) (place : Nat) : Entry where
  state := x
  initiator := 1
  tag := 7
  direction := .read
  privilege := .privileged
  address := 0x1000
  length := 4
  data := []
  order := place
  arrival := 0
  window := some 0
  list := some (.domain 0)
  counted := x == .passing || x == .issued || x == .orphaned
  guarded := true
  monitored := true
  wakePermitted := true
  policy := .stall
  reportDeclines := true
  deadline := some 20
  reason := if x == .held then some .order else none
  code := if x == .declining then some .asleep else none

/-- GOVERNING mode with the window in W0 and one entry of D0 in a state. -/
def withEntry (x : EntryState) : State :=
  { (governing.setWin 0 window).setEntry 0 (some (entry x 0)) with nextOrder := 1 }

/-- Entry 0 is HELD in the list of D0, which is ACTIVE. -/
def held : State :=
  { ((withEntry .held).setHeld (.domain 0) [0]).setInit 1 ⟨8, false, 1⟩ with holdBudget := 1 }

/-- Entry 1 is HELD behind it. -/
def heldTwo : State :=
  { ((held.setEntry 1 (some (entry .held 1))).setHeld (.domain 0) [0, 1]).setInit 1 ⟨8, false, 2⟩ with
    holdBudget := 2, nextOrder := 2 }

/-- D0 is LOW at RETAIN while the wake notice of its HELD entry is outstanding. -/
def asleep : State :=
  { held.setDom 0 { Domain.reset with state := .low } with notices := [⟨0, true, true⟩] }

/-- Entry 0 is STALLED and a re-examination has been prompted. -/
def stalled : State :=
  { (withEntry .stalled).setInit 1 ⟨8, false, 1⟩ with holdBudget := 1, stalled := some 0, prompts := 1 }

/-- Entry 0 is PASSING in the decode stage. -/
def passing : State :=
  { (withEntry .passing).setDom 0 { Domain.reset with inFlight := 1 } with stage := some 0 }

/-- Entry 0 is ISSUED, and its response waits as forward candidate. -/
def waiting : State :=
  { (withEntry .issued).setDom 0 { Domain.reset with inFlight := 1 } with
    forward := some ⟨0, 0, 0, 2, Vector.replicate 64 0x5A⟩ }

/-- Byte 0 of a frame has been shifted in and its argument bytes are awaited. -/
def awaiting (c : Command) (s : State) : State :=
  { s with port := ⟨.arguments c, false, [], 0⟩ }

/-- A response of memory with a tag. -/
def response (tag : Byte) : MemResponse :=
  ⟨0, tag, 0, 4, Vector.replicate 64 0x5A⟩

/-- GOVERNING mode with a record and a slot of D2. -/
def slotWith (x : Domain) (c : Slot) : State :=
  (governing.setDom 2 x).setSlot 2 c

/-- The states ENTERING and EXITING with their ack timers, loaded at timebase 0. -/
def entering : Domain :=
  { Domain.reset with state := .entering, ackTimer := some ⟨0, 1000⟩ }

def exiting : Domain :=
  { Domain.reset with state := .exiting, ackTimer := some ⟨0, 1000⟩ }

/-! ## WellFormed smoke -/

/-- A RAISE_ACTION term may not carry another action's byte (R184). -/
theorem test_wellFormed_refuses_other_action :
    (Instr.raiseAction 0 2 0).wellFormed = false ∧ (Instr.raiseAction 0 5 0).wellFormed = false ∧
    (Instr.raiseAction 0 1 0).wellFormed = true ∧ (Instr.raiseAction 0 6 0).wellFormed = true := by decide

/-- A BAD_COMMAND term may not carry the code of a command that byte 0 alone executes (R157, R160, R187). -/
theorem test_wellFormed_refuses_known_code :
    (Instr.badCommand 0x01).wellFormed = false ∧ (Instr.badCommand 0x22).wellFormed = true ∧
    (Instr.badCommand 0x00).wellFormed = true := by decide

/-- A FRAME_ABORT term may not carry the bits of a whole command: READ STATUS has no argument (R156, R158). -/
theorem test_wellFormed_refuses_whole_command :
    (Instr.frameAbort [false, false, false, false, false, false, false, true]).wellFormed = false ∧
    (Instr.frameAbort [false, false, false, false, false, false, true, false]).wellFormed = true ∧
    (Instr.frameAbort []).wellFormed = true := by decide

/-- No row of the table gives bits, so no word spells a command. -/
theorem test_no_word_spells_a_command : decodeTableWord 8 0x22 = none := rfl

/-! ## The manual's worked examples -/

/-- A window of the example table of chapter 2. -/
def example2 (enable : Bool) (kind : WindowKind) (base mask : BitVec 20) (d : DomainId) : Window :=
  { window with enable := enable, kind := kind, base := base, mask := mask, domain := d }

/-- The example table of chapter 2. -/
def exampleTable : State :=
  { governing with
    windows :=
      (((((governing.windows.set 0 (example2 true .memory 0x80000 0xFFFF 0)).set 1
        (example2 true .memory 0x90001 0xFFE 2)).set 2 (example2 true .memory 0x90000 0xFFF 1)).set 3
        (example2 true .steering 0xFE000 0 0)).set 4 (example2 false .memory 0x80000 0xFFFF 5)).set 5
        (example2 true .memory 0x80100 0xFF 3) }

/-- Requests a to f of chapter 2 find W0, W1, W2, no window, W3 and W0. -/
theorem test_window_example :
    exampleTable.windowFor 0x80042000 = some 0 ∧ exampleTable.windowFor 0x90003040 = some 1 ∧
    exampleTable.windowFor 0x90004000 = some 2 ∧ exampleTable.windowFor 0x91000000 = none ∧
    exampleTable.windowFor 0xFE000010 = some 3 ∧ exampleTable.windowFor 0x80100800 = some 0 := by decide

/-- Request g of chapter 2 is declined BOUNDARY, and a request that ends with its granule is not. -/
theorem test_boundary_example :
    (decodeRequest exampleTable { request with address := 0x80042FF0, length := 32 }).decision = .decline .boundary ∧
    (decodeRequest exampleTable { request with address := 0x80042FE0, length := 32 }).decision = .pass := by decide

/-- The LOWER frame of section 9.6: DRAINING with 3 in flight, ENTERING with none. -/
theorem test_lower_frame_example :
    answer (.lowerAction 2 1) (frameWith { Domain.reset with discardable := true, inFlight := 3 }) = [0x00, 0x01, 0x00] ∧
    answer (.lowerAction 2 1) (frameWith { Domain.reset with discardable := true }) = [0x00, 0x02, 0x00] := by decide

/-- One DOMAIN_LOW record of D2 at OFF is queued and a frame has begun (section 9.6). -/
def oneRecord : State :=
  { opened State.reset with
    events := [{ plain .domainLow 0x00041A20 with domain := some 2, detail := 1 }] }

/-- The POP EVENTS frame of section 9.6, and 0xFF after its last byte. -/
theorem test_pop_frame_example :
    answer (.popEvents 2) oneRecord =
      [0x00, 0x01, 0x01, 0x02, 0xFF, 0xFF, 0x00, 0x00, 0x00, 0x01, 0x00, 0x04, 0x1A, 0x20, 0x00, 0x00, 0x00, 0x00] ∧
    (after (.popEvents 2) oneRecord).shiftedByte 18 = 0xFF := by decide

/-- The record leaves when its last byte has been shifted out, and the bytes stay. -/
theorem test_record_removal :
    (after .recordRemoval (after (.popEvents 2) oneRecord)).events = [] ∧
    answer .recordRemoval (after (.popEvents 2) oneRecord) = answer (.popEvents 2) oneRecord := by decide

/-- The run of losses of section 7.10: 61 records, then five DECLINE records and RAISE_REFUSED. -/
theorem test_overflow_example :
    let s := { State.reset with events := List.replicate 61 (plain .domainLow 0) }
    let offered := List.replicate 5 (plain .decline 52000) ++ [plain .raiseRefused 52000]
    let t := offered.foldl (fun s e => offer e s) s
    t.events.length = 64 ∧
    t.events.getLast? = some { plain .overflow 52000 with detail := 0x07, value := 4 } := by decide

/-- An entry of section 4.4: an initiator, a list and a place. -/
def exampleEntry (n : InitiatorId) (l : ListId) (place : Nat) : Option Entry :=
  some { entry .held place with initiator := n, list := some l }

/-- The hold lists of section 4.4, entries a to d at indices 0 to 4, with D1 in a state. -/
def threeLists (x : DomainState) : State :=
  let s := ((governing.setDom 1 { Domain.reset with state := x }).setInit 2 ⟨8, true, 3⟩)
  let t := (((s.setEntry 0 (exampleEntry 2 (.domain 1) 0)).setEntry 1 (exampleEntry 2 (.domain 3) 1)).setEntry 2
    (exampleEntry 5 (.domain 3) 2)).setEntry 3 (exampleEntry 2 .openPath 3)
  (((t.setEntry 4 (exampleEntry 7 .openPath 4)).setHeld (.domain 1) [0]).setHeld (.domain 3) [1, 2]).setHeld .openPath
    [3, 4]

/-- Before the DONE no head is eligible, after it a alone; and once a and b are gone c and e are, c the older. -/
theorem test_release_example :
    (threeLists .exiting).releaseGroup = [] ∧ (threeLists .active).releaseGroup = [0] ∧
    (let s := ((threeLists .active).setEntry 0 none).setEntry 1 none
     let t := (s.setHeld (.domain 1) []).setHeld (.domain 3) [2]
     t.releaseGroup = [2, 3] ∧ t.releaseCandidate = some 2) := by decide

/-- The word of section 6.5: RAISE for D1, D3, D4 and D6. -/
def steeringRequest : Request :=
  { request with direction := .write, lanes := (((Vector.replicate 64 0).set 0 0x02).set 1 0x5A) }

/-- A steering window that permits RAISE makes four claims, one that does not leaves a record. -/
theorem test_steering_example :
    (takeSteeringWord 9 steeringRequest (governing.setWin 9 window)).claims.map (fun c => (c.action, c.domain)) =
      [(.raise, 1), (.raise, 3), (.raise, 4), (.raise, 6)] ∧
    (takeSteeringWord 9 steeringRequest governing).events =
      [{ plain .steeringIgnored 0 with
          window := some 9, initiator := some 1, tag := 7, detail := 2, value := 0x00005A02 }] := by decide

/-- An outstanding RAISE claim on D2 of the example's write. -/
def claimed (x : Domain) : State :=
  { governing.setDom 2 x with claims := [⟨.raise, 2, 9, 1, 7, 0x00005A02⟩] }

/-- D1 and D3 of the example: LOW goes to EXITING with RAISE handed, and a drain is cancelled. -/
theorem test_raise_claim_example :
    ((after (.raiseClaim 2) (claimed { Domain.reset with state := .low })).dom 2).state = .exiting ∧
    (after (.raiseClaim 2) (claimed { Domain.reset with state := .low })).slot 2 = .waiting .raise 0 ∧
    ((after (.raiseClaim 2) (claimed { Domain.reset with state := .draining, inFlight := 2 })).dom 2).state = .active := by
  decide

/-- D4 and D6 of the example: ignored with DOMAIN_FAULT and PINNED_LOW. -/
theorem test_raise_claim_ignored_example :
    (after (.raiseClaim 2) (claimed { Domain.reset with state := .fault })).events.map (·.detail) = [4] ∧
    (after (.raiseClaim 2) (claimed { Domain.reset with state := .low, pin := .holdLow })).events.map (·.detail) = [3] := by
  decide

/-- DONE for the example's RAISE, 95 microseconds after it was handed: DOMAIN_ACTIVE with value 95 and detail 0. -/
theorem test_done_raise_example :
    (after (.acknowledge .done 2) { slotWith exiting (.taken .raise) with timebase := 95 }).events =
      [{ plain .domainActive 95 with domain := some 2, value := 95 }] := by decide

/-! ## The request link -/

/-- After reset a request passes by the decode stage whatever its address (R51). -/
theorem test_acceptance_passes :
    (after (.acceptance request) State.reset).stage = some 0 ∧
    ((after (.acceptance request) State.reset).entry 0).map (·.state) = some .passing := by decide

/-- A request to a domain that is LOW is HELD with reason WAKE and gives a wake notice (R44, R48). -/
theorem test_acceptance_holds :
    let s := (governing.setWin 0 window).setDom 0 { Domain.reset with state := .low }
    ((after (.acceptance request) s).entry 0).map (·.reason) = some (some .wake) ∧
    (after (.acceptance request) s).notices = [⟨0, true, true⟩] := by decide

/-- The wake notice finds D0 LOW: RAISE is handed (R7, R16). -/
theorem test_arrival_notice_wakes :
    ((after (.arrivalNotice 0) asleep).dom 0).state = .exiting ∧ (after (.arrivalNotice 0) asleep).notices = [] := by
  decide

/-- The pass candidate is issued under its entry index and counted, and the turn becomes RELEASE (R62, R63). -/
theorem test_issue_passing :
    (after .issue passing).sent.downstream.map (·.tag) = [0] ∧ (after .issue passing).stage = none ∧
    ((after .issue passing).entry 0).map (·.state) = some .issued := by decide

/-- The older of two held entries is issued, and the list keeps the other (R61, R82). -/
theorem test_issue_released :
    (after .issue heldTwo).held (.domain 0) = [1] ∧ (after .issue heldTwo).holdBudget = 1 ∧
    ((after .issue heldTwo).dom 0).inFlight = 1 ∧ (after .issue heldTwo).issueTurn = .pass := by decide

/-- A tag above 63 names no entry: STRAY_RESPONSE with detail 15 (R65, R186). -/
theorem test_stray_response :
    (after (.downstreamResponse (response 64)) governing).events.map (·.detail) = [15] ∧
    (after (.downstreamResponse (response 0)) passing).events.map (·.detail) = [1] := by decide

/-- A read of 4 bytes answered with 2 is forwarded with 4, the lanes past them 0x00 (R54, R180). -/
theorem test_forwarding :
    (after .forwarding waiting).sent.upstream.map (fun r => (r.tag, r.code, r.dataCount, r.lanes.toList.take 4)) =
      [(7, 0, 4, [0x5A, 0x5A, 0, 0])] ∧
    (after .forwarding waiting).entry 0 = none ∧ ((after .forwarding waiting).dom 0).inFlight = 0 := by decide

/-- ASLEEP is code 0x6 and carries no data (R181, R67). -/
theorem test_decline_send :
    (after .declineSend (withEntry .declining)).sent.upstream.map (fun r => (r.tag, r.code, r.dataCount)) = [(7, 6, 0)] ∧
    (after .declineSend (withEntry .declining)).entry 0 = none := by decide

/-- D0 is ACTIVE with an empty list, so the STALLED entry passes and gives up its place (R97). -/
theorem test_re_examination_passes :
    (after .reExamination stalled).stage = some 0 ∧ (after .reExamination stalled).holdBudget = 0 ∧
    (after .reExamination stalled).stalled = none := by decide

/-- The deadline of 20 passes at timebase 20 and not at 19 (R91). -/
theorem test_hold_deadline :
    (after (.holdDeadlineExpiry 0) { held with timebase := 19 }).held (.domain 0) = [0] ∧
    ((after (.holdDeadlineExpiry 0) { held with timebase := 20 }).entry 0).map (·.code) = some (some .holdTimeout) := by
  decide

/-- The same for the STALLED entry (R92). -/
theorem test_stall_deadline :
    (after .stallDeadlineExpiry { stalled with timebase := 19 }).stalled = some 0 ∧
    (after .stallDeadlineExpiry { stalled with timebase := 20 }).stalled = none := by decide

/-! ## Domains and the power channel -/

/-- D2 ACTIVE with an idle limit of 1 unit, its timer loaded at timebase 0. -/
def idling : Domain :=
  { Domain.reset with idleLimit := 1, idleTimer := some ⟨0, 16⟩ }

/-- One unit of the idle limit is 16 microseconds (R1, R8). -/
theorem test_idle_timer :
    ((after (.idleTimerExpiry 2) { governing.setDom 2 idling with timebase := 15 }).dom 2).state = .active ∧
    ((after (.idleTimerExpiry 2) { governing.setDom 2 idling with timebase := 16 }).dom 2).state = .draining := by decide

/-- A drain completes with LOWER at the target once nothing is in flight (R11). -/
theorem test_drain_completion :
    let x := { Domain.reset with state := .draining, level := .off, discardable := true }
    (after (.drainCompletion 2) (governing.setDom 2 x)).slot 2 = .waiting (.lower .off) 0 ∧
    ((after (.drainCompletion 2) (governing.setDom 2 { x with inFlight := 1 })).dom 2).state = .draining := by decide

/-- D2 LOW at RETAIN with a deep limit of 1 unit, its timer loaded at timebase 0. -/
def dozing : Domain :=
  { Domain.reset with
    state := .low, discardable := true, deepLimit := 1, deepTimer := some ⟨0, 1000⟩ }

/-- One unit of the deep limit is 1000 microseconds; the step-down is to OFF (R1, R15). -/
theorem test_deep_timer :
    ((after (.deepTimerExpiry 2) { governing.setDom 2 dozing with timebase := 999 }).dom 2).state = .low ∧
    (after (.deepTimerExpiry 2) { governing.setDom 2 dozing with timebase := 1000 }).slot 2 = .waiting (.lower .off) 0 := by
  decide

/-- The ack timer expires at its limit: FAULT, the slot EMPTY, ACK_TIMEOUT with the command taken (R19, R121, R145). -/
theorem test_ack_timer :
    let s := slotWith exiting (.taken .raise)
    ((after (.ackTimerExpiry 2) { s with timebase := 999 }).dom 2).state = .exiting ∧
    ((after (.ackTimerExpiry 2) { s with timebase := 1000 }).dom 2).state = .fault ∧
    (after (.ackTimerExpiry 2) { s with timebase := 1000 }).events =
      [{ plain .ackTimeout 1000 with domain := some 2, code := 2, value := 1 }] := by decide

/-- The command that was handed first is transferred first, whatever its domain's number: operation LOWER, level OFF, D6
(R116, R188). -/
theorem test_command_transfer :
    let s := (governing.setSlot 1 (.waiting .raise 5)).setSlot 6 (.waiting (.lower .off) 4)
    (after .commandTransfer s).sent.commands = [⟨0, 1, 6⟩] ∧
    (after .commandTransfer s).slot 6 = .taken (.lower .off) ∧ (after .commandTransfer s).slot 1 = .waiting .raise 5 := by
  decide

/-- DONE for LOWER at OFF: LOW, contents lost, DOMAIN_LOW with detail OFF (R5, R13). -/
theorem test_done_lower :
    let s := slotWith { entering with level := .off, discardable := true } (.taken (.lower .off))
    ((after (.acknowledge .done 2) s).dom 2).state = .low ∧
    ((after (.acknowledge .done 2) s).dom 2).contentsValid = false ∧
    (after (.acknowledge .done 2) s).events = [{ plain .domainLow 0 with domain := some 2, detail := 1 }] := by decide

/-- A KEEP claim cancels a drain under HOLD_LOW too, and is spent without effect elsewhere (R134). -/
theorem test_keep_claim :
    let s (x : Domain) := { governing.setDom 2 x with claims := [⟨.keep, 2, 9, 1, 7, 1⟩] }
    ((after (.keepClaim 2) (s { Domain.reset with state := .draining, pin := .holdLow })).dom 2).state = .active ∧
    ((after (.keepClaim 2) (s { Domain.reset with state := .low })).dom 2).state = .low ∧
    (after (.keepClaim 2) (s { Domain.reset with state := .low })).claims = [] := by decide

/-- A stored HOLD_LOW pin acts when the switch to GOVERNING is taken (R32). -/
theorem test_governing_switch :
    let s := { governing.setDom 2 { Domain.reset with pin := .holdLow } with switches := allDomains }
    (after (.governingSwitchTaken 2) s).slot 2 = .waiting (.lower .retain) 0 ∧
    (after (.governingSwitchTaken 2) s).switches = [0, 1, 3, 4, 5, 6, 7] := by decide

/-! ## Resets, the timebase and frames -/

/-- A port reset orphans the ISSUED entry and counts it in the record; the pool is emptied (R73, R146). -/
theorem test_port_reset :
    ((after .portReset { waiting with forward := none }).entry 0).map (·.state) = some .orphaned ∧
    (after .portReset { waiting with forward := none }).events.map (fun e => (e.detail, e.value)) = [(1, 0)] ∧
    (after .portReset held).holdBudget = 0 ∧ (after .portReset held).events.map (fun e => (e.detail, e.value)) = [(0, 1)] := by
  decide

/-- The response of an orphan is dropped and its entry freed (R75). -/
theorem test_orphan_response :
    let s := (withEntry .orphaned).setDom 0 { Domain.reset with inFlight := 1 }
    (after (.downstreamResponse (response 0)) s).entry 0 = none ∧
    ((after (.downstreamResponse (response 0)) s).dom 0).inFlight = 0 ∧
    (after (.downstreamResponse (response 0)) s).events = [] := by decide

/-- PORTRST is released and acceptance resumes (R74). -/
theorem test_port_reset_release :
    (after .portResetRelease { governing with portReset := true }).portReset = false := by decide

/-- Power-on reset drops a frame in progress and ignores the rest of it; at release the mode is TRANSPARENT (R156, R163). -/
theorem test_power_on_reset :
    (after .powerOnReset (opened held)).port.phase = .ignoring ∧ (after .powerOnReset held).entry 0 = none ∧
    (after .powerOnResetRelease { held with inReset := true }).mode = .transparent := by decide

/-- The timebase wraps (R153). -/
theorem test_timebase_wraps :
    (after .timebaseAdvance { governing with timebase := 0xFFFFFFFF }).timebase = 0 := by decide

/-- Chip select falls into COMMAND, or into IGNORING while RESETN is active (R156). -/
theorem test_chip_select_falling :
    (after .chipSelectFalling State.reset).port.phase = .command ∧
    (after .chipSelectFalling { State.reset with inReset := true }).port.phase = .ignoring := by decide

/-- The eighth bit of byte 0 takes a WRITE DOMAIN frame to ARGUMENTS, where its own row executes it, another command's does
not, and power-on reset drops it (R156, R157). -/
theorem test_arguments :
    (after (.badCommand 0x21) (opened State.reset)).port.phase = .arguments .writeDomain ∧
    (after (.writeDomain 2 (Vector.replicate 8 1)) (awaiting .writeDomain State.reset)).port.phase = .result ∧
    after (.readDomain 2) (awaiting .writeDomain State.reset) = awaiting .writeDomain State.reset ∧
    (after .powerOnReset (awaiting .writeDomain State.reset)).port.phase = .ignoring := by decide

/-- A frame cut in its arguments sets last-frame-aborted (R158). -/
theorem test_abort_in_arguments :
    (after (.frameAbort [false, false, true, false, false, false, false, true, true]) (awaiting .writeDomain State.reset)).port =
      ⟨.idle, true, [], 0⟩ := by decide

/-- A HELD entry keeps its hold reason when it is declined (R49). -/
theorem test_reason_kept :
    ((after (.flush 0 0) (opened held)).entry 0).map (fun e => (e.state, e.reason)) =
      (held.entry 0).map (fun e => (.declining, e.reason)) ∧
    ((held.entry 0).bind (·.reason)).isSome = true := by decide

/-- A frame aborted after one bit sets last-frame-aborted; one without a bit does not (R158). -/
theorem test_frame_abort :
    (after (.frameAbort [true]) (opened State.reset)).port = ⟨.idle, true, [], 0⟩ ∧
    (after (.frameAbort []) (opened State.reset)).port = ⟨.idle, false, [], 0⟩ := by decide

/-- Chip select rises in RESULT, and in IGNORING (R156, R159). -/
theorem test_frame_ends :
    (after .frameEnd (after .readStatus (opened State.reset))).port.phase = .idle ∧
    (after .ignoringEnd { State.reset with port := ⟨.ignoring, false, [], 0⟩ }).port.phase = .idle := by decide

/-! ## Management commands -/

/-- READ STATUS after reset (R185). -/
theorem test_read_status :
    answer .readStatus (opened State.reset) = [0, 0, 0, 0, 0, 0, 0, 0, 0, 0, 0, 0, 0, 0xFF, 0xFF] ∧
    answer .readStatus { opened stalled with timebase := 0x01020304 } =
      [0, 1, 0, 1, 1, 1, 2, 3, 4, 0, 0, 0, 0, 0xFF, 0xFF] := by decide

/-- SET MODE: a switch, the guard of TRANSPARENT, and a value that names no mode (R163 to R165). -/
theorem test_set_mode :
    (after (.setMode 1) (opened State.reset)).switches = allDomains ∧
    answer (.setMode 0) (opened held) = [0x04] ∧ answer (.setMode 2) (opened State.reset) = [0x03] := by decide

/-- READ WINDOW after reset, and a number above 15 (R34, R168). -/
theorem test_read_window :
    answer (.readWindow 15) (opened State.reset) = [0, 0, 0, 0, 0, 0, 0, 0, 0, 0, 0, 0, 0] ∧
    answer (.readWindow 16) (opened State.reset) = [0x02] := by decide

/-- The record of W1 of chapter 2, written out by R183: enabled, base 0x90001, mask bits 11 to 1, D2. -/
theorem test_write_window :
    let s := after (.writeWindow 1 #v[0x01, 0x02, 0x8F, 0x90, 0x00, 0x10, 0x0F, 0xFE, 0xFF, 0xFF, 0x01, 0x00])
      (opened State.reset)
    s.win 1 =
      { window with
        base := 0x90001, mask := 0xFFE, domain := 2, wakePermitted := false, monitored := false, guarded := false
        policy := .decline, raisePermitted := false, holdLimit := 256 } ∧
    (after (.writeWindow 1 #v[0x04, 0, 0, 0, 0, 0, 0, 0, 0, 0, 0, 0]) (opened State.reset)).port.result = [0x03] := by decide

/-- READ DOMAIN after reset: an ack limit of 1000 and contents-valid (R2, R184). -/
theorem test_read_domain :
    answer (.readDomain 7) (opened State.reset) =
      [0, 0, 0, 0, 0, 0x03, 0xE8, 0, 0, 0x10, 0, 0, 0, 0, 0, 0, 0] ∧
    answer (.readDomain 2) (frameWith { dozing with pin := .holdLow, wakePending := true }) =
      [0, 0, 0, 0, 1, 0x03, 0xE8, 0x05, 0, 0x33, 0, 0, 0, 0, 0, 0, 1] := by decide

/-- WRITE DOMAIN: HOLD_LOW on an ACTIVE domain starts a drain, and an ack limit of 0 or 4096 is refused (R23, R24). -/
theorem test_write_domain :
    ((after (.writeDomain 2 #v[0, 0, 0, 0, 0, 1, 0x05, 0]) (frameWith Domain.reset)).dom 2).state = .draining ∧
    answer (.writeDomain 2 #v[0, 0, 0, 0, 0, 0, 0, 0]) (frameWith Domain.reset) = [0x03] ∧
    answer (.writeDomain 2 #v[0, 0, 0, 0, 0x10, 0, 0, 0]) (frameWith Domain.reset) = [0x03] ∧
    answer (.writeDomain 2 #v[0, 0, 0, 0, 0, 1, 0x04, 0]) (frameWith exiting) = [0x04] := by decide

/-- The RAISE action from LOW, under HOLD_LOW, and an action code without a meaning (R25, R26). -/
theorem test_raise_action :
    answer (.raiseAction 2 1 0) (frameWith { Domain.reset with state := .low }) = [0x00, 0x04, 0x00] ∧
    answer (.raiseAction 2 1 0) (frameWith { Domain.reset with state := .low, pin := .holdLow }) = [0x04] ∧
    answer (.raiseAction 2 6 0) (frameWith Domain.reset) = [0x03] := by decide

/-- LOWER to RETAIN at OFF is BUSY, and OFF without discardable is BAD_VALUE (R27). -/
theorem test_lower_action_refused :
    answer (.lowerAction 2 0) (frameWith { Domain.reset with state := .low, level := .off }) = [0x04] ∧
    answer (.lowerAction 2 1) (frameWith Domain.reset) = [0x03] := by decide

/-- CLEAR FAULT with LOW at OFF loses the contents; outside FAULT it is BUSY (R28). -/
theorem test_clear_fault :
    answer (.clearFault 2 2) (frameWith { Domain.reset with state := .fault }) = [0x00, 0x03, 0x00] ∧
    ((after (.clearFault 2 2) (frameWith { Domain.reset with state := .fault })).dom 2).contentsValid = false ∧
    answer (.clearFault 2 0) (frameWith Domain.reset) = [0x04] := by decide

/-- VALIDATE in TRANSPARENT mode (R29). -/
theorem test_validate :
    let s := opened (State.reset.setDom 2 { Domain.reset with contentsValid := false })
    ((after (.validate 2 0) s).dom 2).contentsValid = true ∧ answer (.validate 2 0) s = [0x00, 0x00, 0x00] := by decide

/-- FLUSH of two held entries answers 2 and declines both FLUSHED (R30). -/
theorem test_flush :
    answer (.flush 0 0) (opened heldTwo) = [0x00, 0x00, 0x02] ∧
    ((after (.flush 0 0) (opened heldTwo)).entry 1).map (·.code) = some (some .flushed) ∧
    (after (.flush 0 0) (opened heldTwo)).holdBudget = 0 := by decide

/-- A FLUSH that empties the list of a DRAINING domain with none in flight sends its LOWER at once and answers ENTERING; with
one in flight it answers DRAINING (R30, R171). -/
theorem test_flush_completes_drain :
    let s (n : Nat) := opened (heldTwo.setDom 0 { Domain.reset with state := .draining, inFlight := n })
    answer (.flush 0 0) (s 0) = [0x00, 0x02, 0x02] ∧ (after (.flush 0 0) (s 0)).slot 0 = .waiting (.lower .retain) 0 ∧
    answer (.flush 0 0) (s 1) = [0x00, 0x01, 0x02] := by decide

/-- LIST HELD: one entry held for order, of age 300 (R106, R184). -/
theorem test_list_held :
    answer (.listHeld 0) { opened held with timebase := 300 } =
      [0x00, 0x01, 0x01, 0x07, 0x06, 0x04, 0x00, 0x00, 0x10, 0x00, 0x00, 0x01, 0x2C, 0x00] ∧
    answer (.listHeld 8) (opened held) = [0x00, 0x00] ∧ answer (.listHeld 9) (opened held) = [0x02] := by decide

/-- READ INITIATOR after reset (R79, R173). -/
theorem test_read_initiator :
    answer (.readInitiator 15) (opened State.reset) = [0x00, 0x08, 0x00, 0x00] ∧
    answer (.readInitiator 16) (opened State.reset) = [0x02] := by decide

/-- WRITE INITIATOR: a quota of 32 is stored and 33 refused; a raised quota prompts a re-examination (R86, R96). -/
theorem test_write_initiator :
    (after (.writeInitiator 1 32 1) (opened stalled)).init 1 = ⟨32, true, 1⟩ ∧
    (after (.writeInitiator 1 32 1) (opened stalled)).prompts = 2 ∧
    answer (.writeInitiator 1 33 1) (opened stalled) = [0x03] := by decide

/-- SET EVENT CONTROL stores the four controls, or nothing (R143, R185). -/
theorem test_set_event_control :
    (after (.setEventControl 0x12 0x34 0x07) (opened State.reset)).control = ⟨0x1234, true, true, .stall⟩ ∧
    answer (.setEventControl 0x12 0x34 0x08) (opened State.reset) = [0x03] := by decide

/-- An unknown code is BAD_COMMAND, and 0xFF follows (R160). -/
theorem test_bad_command :
    answer (.badCommand 0x7F) (opened State.reset) = [0x01] ∧
    (after (.badCommand 0x7F) (opened State.reset)).shiftedByte 1 = 0xFF := by decide

/-- The LOWER frame of section 9.6 and the POP EVENTS frame after it, byte by byte, and a frame one byte short. -/
theorem test_frame_commands :
    frameCommand [0x22, 0x02, 0x02, 0x01] = some (.lowerAction 2 1) ∧ frameCommand [0x40, 0x02] = some (.popEvents 2) ∧
    frameCommand [0x22, 0x02, 0x02] = none ∧ frameCommand [0x7F] = some (.badCommand 0x7F) := by decide

/-- A write by initiator 15, unprivileged, and a REFUSED for D7, field by field (R179, R188). -/
theorem test_signal_groups :
    requestOf 15 7 1 0 0x1000 4 (Vector.replicate 64 0) =
      { request with initiator := 15, direction := .write, privilege := .unprivileged } ∧
    acknowledgeOf 1 7 = .acknowledge .refused 7 ∧ commandLines 5 .raise = ⟨1, 0, 5⟩ := by decide

/-! ## Every command is answered with a next state -/

/-- No command faults and none is refused. -/
theorem test_every_command_is_answered (c : Instr) (s : State) : exec c s = .next (after c s) := by
  cases c <;> rfl

/-! ## The hypotheses of the statements are met -/

/-- RESETN is active. -/
def inReset : State :=
  { State.reset with inReset := true }

theorem test_hyps_StepRunsFrontCommand : State.reset.pending = [] := rfl

theorem test_hyps_OnlyTheirCommandsChangeSettings :
    exec .issue passing = .next (after .issue passing) ∧ Instr.issue ≠ .powerOnReset ∧
    Instr.issue ≠ .powerOnResetRelease ∧ Instr.issue ≠ .timebaseAdvance ∧ (∀ m, Instr.issue ≠ .setMode m) ∧
    (∀ w r, Instr.issue ≠ .writeWindow w r) ∧ (∀ h l f, Instr.issue ≠ .setEventControl h l f) ∧
    (∀ n q f, Instr.issue ≠ .writeInitiator n q f) ∧ (∀ b, Instr.issue ≠ .frameAbort b) ∧ Instr.issue ≠ .readStatus ∧
    Instr.issue ≠ .portReset ∧ Instr.issue ≠ .portResetRelease :=
  ⟨rfl, nofun, nofun, nofun, nofun, nofun, nofun, nofun, nofun, nofun, nofun, nofun⟩

theorem test_hyps_RowsOutOfPlaceChangeNothing : inReset.inReset = true ∧ (∀ c, State.reset.awaits c = false) ∧
    (awaiting .writeDomain State.reset).awaits none = false ∧
    (awaiting .writeDomain State.reset).awaits (some .domainAction) = false :=
  ⟨rfl, fun _ => rfl, by decide, by decide⟩

theorem test_hyps_ResetDomainRecords :
    exec .powerOnReset held = .next (after .powerOnReset held) ∧
    exec .powerOnResetRelease inReset = .next (after .powerOnResetRelease inReset) := ⟨rfl, rfl⟩

theorem test_hyps_ResetWindowsAndHoldPool :
    exec .portReset held = .next (after .portReset held) ∧ inReset.inReset = true := ⟨rfl, rfl⟩

theorem test_hyps_PowerOnResetValues : held.inReset = false ∧ inReset.inReset = true := ⟨rfl, rfl⟩

/-- A queue of some DOMAIN_LOW records, newest last `o`. -/
def queued (n : Nat) (o : EventKind) : State :=
  { State.reset with events := List.replicate n (plain .domainLow 0) ++ [plain o 0] }

theorem test_hyps_OfferedRecordIsTaken :
    ({ State.reset with control := ⟨0xFFFE, false, false, .decline⟩ } : State).control.records .domainLow = false ∧
    State.reset.control.records .domainLow = true ∧ (queued 61 .decline).events.length = 62 ∧
    (queued 62 .overflow).events = List.replicate 62 (plain .domainLow 0) ++ [plain .overflow 0] ∧
    (queued 63 .overflow).events = List.replicate 63 (plain .domainLow 0) ++ [plain .overflow 0] ∧
    (List.replicate 62 (plain .domainLow 0)).length = 62 ∧ (plain .overflow 0).kind = .overflow ∧
    (queued 62 .decline).events = List.replicate 62 (plain .domainLow 0) ++ [plain .decline 0] ∧
    (plain .decline 0).kind ≠ .overflow := by
  refine ⟨by decide, by decide, by decide, rfl, rfl, by decide, rfl, rfl, by decide⟩

theorem test_hyps_AlertFollowsQueue :
    let s := { State.reset with control := ⟨0xFFFF, true, false, .decline⟩ }
    s.inReset = false ∧ inReset.inReset = true ∧ s.events = [] ∧ s.control.alertEnable = true ∧
    s.control.records .decline = true ∧ (queued 0 .decline).events ≠ [] ∧
    (after (.popEvents 1) oneRecord).events = [{ plain .domainLow 0x00041A20 with domain := some 2, detail := 1 }] ∧
    (after (.popEvents 1) oneRecord).port.phase = .result ∧ (after (.popEvents 1) oneRecord).port.popLeft = 1 ∧
    oneRecord.awaits (some .setEventControl) = true ∧ oneRecord.awaits (some .readStatus) = true ∧
    ((0x07 : Byte).toNat / 4) % 4 = 1 := by decide

/-- ALERT changes at a record that is appended, at the last record removed, at SET EVENT CONTROL and at power-on reset. -/
theorem test_hyps_AlertFollowsQueue_changes :
    let enabled (s : State) := { s with control := ⟨0xFFFF, true, false, .decline⟩ }
    let popping := enabled (after (.popEvents 1) oneRecord)
    (after (.acknowledge .done 2) (enabled State.reset)).alert ≠ (enabled State.reset).alert ∧
    (after .recordRemoval popping).alert ≠ popping.alert ∧
    (after (.setEventControl 0xFF 0xFF 1) oneRecord).alert ≠ oneRecord.alert ∧
    (after .powerOnReset popping).alert ≠ popping.alert := by decide

/-- The bits of READ STATUS's only byte, and of a SET MODE frame that ends one bit short. -/
def statusBits : List Bool :=
  [false, false, false, false, false, false, false, true]

def shortBits : List Bool :=
  [false, false, false, false, false, false, true, false, false, false, false, false, false, false, false]

theorem test_hyps_FramePhases :
    let late := awaiting .setMode State.reset
    State.reset.port.phase = .idle ∧ (opened State.reset).port.phase ≠ .idle ∧ (opened State.reset).inReset = false ∧
    (opened State.reset).port.phase = .command ∧ commandOf? 0x02 = some .setMode ∧ commandOf? 0x01 = some .readStatus ∧
    (opened State.reset).awaits (commandOf? (firstByte [])) = true ∧
    late.awaits (commandOf? (firstByte shortBits)) = true ∧ 8 ≤ (shortBits.take 8).length ∧ notYetExecuted [] = true ∧
    notYetExecuted (shortBits.take 8) = true ∧ notYetExecuted shortBits = true ∧
    notYetExecuted (shortBits ++ [false]) = false ∧ notYetExecuted statusBits = false ∧
    late.port.phase = .arguments .setMode ∧ (shortBits.take 7).length < 8 ∧
    commandOf? (firstByte statusBits) ≠ some .setMode ∧ (after .readStatus (opened State.reset)).port.phase = .result ∧
    (opened State.reset).port.phase ≠ .result ∧ (after .powerOnReset (opened State.reset)).port.phase = .ignoring ∧
    State.reset.port.phase ≠ .ignoring := by decide

theorem test_hyps_UnknownCodeIsBadCommand :
    (0x00 : Byte).toNat ∉ [0x01, 0x02, 0x10, 0x11, 0x20, 0x21, 0x22, 0x30, 0x38, 0x39, 0x40, 0x41] ∧
    (0x42 : Byte).toNat ∉ [0x01, 0x02, 0x10, 0x11, 0x20, 0x21, 0x22, 0x30, 0x38, 0x39, 0x40, 0x41] ∧
    (opened State.reset).awaits none = true := by decide

theorem test_hyps_ReadStatusReports : (opened State.reset).awaits (some .readStatus) = true := by decide

theorem test_hyps_SetModeSwitches :
    (opened State.reset).awaits (some .setMode) = true ∧ (2 : Byte) ≠ 0 ∧ (2 : Byte) ≠ 1 ∧ (opened State.reset).mode = .transparent ∧
    (opened governing).awaits (some .setMode) = true ∧ (opened governing).mode = .governing ∧
    ((∀ d, ((opened governing).dom d).state = .active ∧ ((opened governing).dom d).contentsValid = true) ∧
      (opened governing).holdBudget = 0) ∧
    (opened held).awaits (some .setMode) = true ∧ (opened held).mode = .governing ∧
    ¬((∀ d, ((opened held).dom d).state = .active ∧ ((opened held).dom d).contentsValid = true) ∧
      (opened held).holdBudget = 0) ∧
    ¬((∀ d, ((frameWith dozing).dom d).state = .active ∧ ((frameWith dozing).dom d).contentsValid = true) ∧
      (frameWith dozing).holdBudget = 0) := by decide

/-- The record of `window`. -/
def windowRecord : Vector Byte 12 :=
  #v[0x09, 0x10, 0xFF, 0x00, 0x00, 0x10, 0x00, 0x00, 0xFF, 0xFF, 0x00, 0x14]

/-- A record whose unused bits are set, and that has no meaning with W's domain 8. -/
def looseRecord (b : Byte) : Vector Byte 12 :=
  #v[0xE9, b, 0xFF, 0x00, 0x00, 0x10, 0x00, 0x00, 0xFF, 0xFF, 0x00, 0x14]

/-- A domain configuration: its ack limit and its byte 6. -/
def configRecord (ackHigh ackLow b : Byte) : Vector Byte 8 :=
  #v[0x00, 0x01, 0x00, 0x02, ackHigh, ackLow, b, 0x00]

theorem test_hyps_RecordsReadBackAsWritten :
    windowRecord.toList = window.bytes ∧ windowOfRecord? (looseRecord 0xF0) = some window ∧
    (let x := { Domain.reset with ackLimit := 1 }
     (#v[0, 0, 0, 0, 0, 1, 0, 0] : Vector Byte 8).toList = x.configBytes ∧ 1 ≤ x.ackLimit.toNat) ∧
    (let x := { Domain.reset with ackLimit := 4095, pin := .holdLow, pinLevel := .off, discardable := true }
     (#v[0, 0, 0, 0, 0x0F, 0xFF, 0x0D, 0] : Vector Byte 8).toList = x.configBytes ∧ x.ackLimit.toNat ≤ 4095 ∧
     ¬(x.pin = .holdLow ∧ x.pinLevel = .off ∧ x.discardable = false)) := by decide

theorem test_hyps_WindowRecordFields :
    windowOfRecord? (looseRecord 0x08) = none ∧ windowOfRecord? (looseRecord 0xF0) = some window ∧
    (opened State.reset).awaits (some .readWindow) = true ∧ (opened State.reset).awaits (some .writeWindow) = true ∧
    (awaiting .writeWindow State.reset).awaits (some .writeWindow) = true ∧ 16 ≤ (16 : Byte).toNat := by decide

theorem test_hyps_ReadDomainReports : (opened State.reset).awaits (some .readDomain) = true ∧ 8 ≤ (8 : Byte).toNat := by decide

/-- The configuration that `configRecord 0x00 0x01 0x04` carries: HOLD_LOW at RETAIN. -/
def pinnedLow : DomainConfig :=
  ⟨1, 2, 1, false, .holdLow, .retain⟩

theorem test_hyps_WriteDomainRefused :
    configOf? (configRecord 0 0 0) = none ∧ configOf? (configRecord 0x10 0 0) = none ∧
    configOf? (configRecord 0x00 0x01 0x04) = some pinnedLow ∧ pinnedLow.pin = .holdLow ∧
    (frameWith exiting).awaits (some .writeDomain) = true ∧ 8 ≤ (8 : Byte).toNat ∧
    ((frameWith entering).dom 2).state = .entering ∧ ((frameWith exiting).dom 2).state = .exiting ∧
    ((frameWith { Domain.reset with state := .fault }).dom 2).state = .fault := by decide

theorem test_hyps_WriteDomainTaken :
    (frameWith dozing).awaits (some .writeDomain) = true ∧ configOf? (configRecord 0x00 0x01 0x04) = some pinnedLow ∧
    ¬(pinnedLow.pin = .holdLow ∧
      (((frameWith dozing).dom 2).state = .entering ∨ ((frameWith dozing).dom 2).state = .exiting ∨
        ((frameWith dozing).dom 2).state = .fault)) := by decide

theorem test_hyps_RaiseActionTaken :
    (frameWith dozing).awaits (some .domainAction) = true ∧ 8 ≤ (8 : Byte).toNat ∧ isOtherAction 1 = false ∧
    (0 : Byte).toNat = 0 ∧ 6 ≤ (6 : Byte).toNat ∧ 2 ≤ (2 : Byte).toNat ∧ (5 : Byte).toNat ≤ 5 ∧
    (opened State.reset).mode = .transparent ∧ (frameWith dozing).mode = .governing ∧
    ((frameWith { Domain.reset with state := .fault }).dom 2).state = .fault ∧
    (let x := (frameWith { dozing with pin := .holdLow }).dom 2
     x.pin = .holdLow ∧ (x.state = .draining ∨ x.state = .entering ∨ x.state = .low)) ∧
    ((frameWith dozing).dom 2).state ≠ .fault ∧
    ¬(((frameWith dozing).dom 2).pin = .holdLow ∧
      (((frameWith dozing).dom 2).state = .draining ∨ ((frameWith dozing).dom 2).state = .entering ∨
        ((frameWith dozing).dom 2).state = .low)) := by decide

theorem test_hyps_LowerActionTaken :
    (frameWith dozing).awaits (some .domainAction) = true ∧ (frameWith dozing).mode = .governing ∧ (opened State.reset).awaits (some .domainAction) = true ∧
    (opened State.reset).mode = .transparent ∧ 8 ≤ (8 : Byte).toNat ∧ 2 ≤ (2 : Byte).toNat := by decide

theorem test_hyps_ClearFaultTakesTheAssumption :
    let s := frameWith { Domain.reset with state := .fault }
    s.awaits (some .domainAction) = true ∧ s.mode = .governing ∧ (s.dom 2).state = .fault ∧ 8 ≤ (8 : Byte).toNat ∧ 3 ≤ (3 : Byte).toNat ∧
    (2 : Byte).toNat < 3 ∧ (opened State.reset).mode = .transparent ∧ (s.dom 3).state ≠ .fault := by decide

theorem test_hyps_ValidateSetsContentsValid : (opened State.reset).awaits (some .domainAction) = true ∧ 8 ≤ (8 : Byte).toNat := by decide

/-- The laws of the device hold of two HELD entries, one of a sleeping domain, of a STALLED entry and of a PASSING one. -/
theorem test_pool_kept_heldTwo : PoolKept heldTwo :=
  ⟨by decide, by decide, by decide, by decide, by decide⟩

theorem test_kept_heldTwo : Kept heldTwo :=
  ⟨by decide, test_pool_kept_heldTwo, by decide, by decide, by decide, by decide, by decide, by decide, by decide,
    by decide, by decide, by decide, by decide⟩

theorem test_pool_kept_stalled : PoolKept stalled :=
  ⟨by decide, by decide, by decide, by decide, by decide⟩

theorem test_kept_asleep : Kept asleep :=
  ⟨by decide, ⟨by decide, by decide, by decide, by decide, by decide⟩, by decide, by decide, by decide, by decide,
    by decide, by decide, by decide, by decide, by decide, by decide, by decide⟩

theorem test_kept_passing : Kept passing :=
  ⟨by decide, ⟨by decide, by decide, by decide, by decide, by decide⟩, by decide, by decide, by decide, by decide,
    by decide, by decide, by decide, by decide, by decide, by decide, by decide⟩

theorem test_hyps_FlushDeclinesTheDomain :
    PoolKept heldTwo ∧ PoolKept stalled ∧ heldTwo.entry 1 = some (entry .held 1) ∧ heldTwo.entry 2 = none ∧
    ListId.openPath ≠ .domain 0 ∧ (opened heldTwo).awaits (some .domainAction) = true ∧ 8 ≤ (8 : Byte).toNat :=
  ⟨test_pool_kept_heldTwo, test_pool_kept_stalled, by decide, by decide, by decide, by decide, by decide⟩

theorem test_hyps_ListHeldReports : (opened held).awaits (some .listHeld) = true ∧ 9 ≤ (9 : Byte).toNat := by decide

theorem test_hyps_InitiatorCommands :
    (opened stalled).awaits (some .readInitiator) = true ∧ (opened stalled).awaits (some .writeInitiator) = true ∧ 16 ≤ (16 : Byte).toNat ∧ 32 < (33 : Byte).toNat ∧ (32 : Byte).toNat ≤ 32 ∧
    ((opened stalled).init 1).quota < (9 : Byte).toNat ∧ (opened stalled).stalled = some 0 ∧
    (opened stalled).entry 0 = some (entry .stalled 0) ∧ (entry .stalled 0).initiator = 1 ∧
    ¬((opened stalled).init 1).quota < (8 : Byte).toNat := by decide

theorem test_hyps_PopEventsShiftsRecords :
    oneRecord.awaits (some .popEvents) = true ∧ (0 : Byte).toNat = 0 ∧ 64 < (65 : Byte).toNat ∧ 1 ≤ (1 : Byte).toNat ∧
    (64 : Byte).toNat ≤ 64 ∧
    (let s := after (.popEvents 1) oneRecord
     s.port.phase = .result ∧ 0 < s.port.popLeft ∧
     s.events = [{ plain .domainLow 0x00041A20 with domain := some 2, detail := 1 }]) ∧
    oneRecord.port.phase ≠ .result ∧ State.reset.port.popLeft = 0 ∧ State.reset.events = [] := by decide

theorem test_hyps_EventControlsStored :
    (opened State.reset).awaits (some .setEventControl) = true ∧ 2 ≤ ((0x08 : Byte).toNat / 4) % 4 ∧ ((0xF7 : Byte).toNat / 4) % 4 < 2 := by
  decide

/-- Every entry live but, where `i` is given, the one at `i`. -/
def crowded (i : Option EntryIdx) : State :=
  { State.reset with
    table := Vector.ofFn (fun j => if some j = i then none else some (entry .issued j.val)) }

theorem test_hyps_AcceptanceWithheld :
    inReset.inReset = true ∧ ({ State.reset with portReset := true } : State).portReset = true ∧ passing.stage ≠ none ∧
    stalled.stalled ≠ none ∧ ∀ i, (crowded none).entry i ≠ none := by decide

theorem reset_entry : ∀ j, State.reset.entry j = none := by decide

/-- No entry is live, so no tag is in use. -/
theorem test_no_tag_in_use (s : State) (h : s.table = State.reset.table) : ¬TagInUse s request := by
  rintro ⟨j, f, hf, _⟩
  have : s.entry j = State.reset.entry j := by simp only [State.entry, h]
  rw [this, reset_entry] at hf
  cases hf

/-- GOVERNING mode with one window in W0 and contents-valid of D0 as given. -/
def windowed (w : Window) (valid : Bool) : State :=
  (governing.setWin 0 w).setDom 0 { Domain.reset with contentsValid := valid }

theorem test_hyps_DecodeSequence_checks :
    TagInUse passing request ∧ ¬TagInUse State.reset request ∧ State.reset.mode = .transparent ∧
    ¬TagInUse governing request ∧ governing.mode = .governing ∧ ¬InOneGranule { request with address := 0x1FFD } ∧
    InOneGranule { request with address := 0x1FFC } ∧ governing.windowFor 0x1FFC = none :=
  ⟨⟨0, entry .passing 0, by decide, by decide, rfl, rfl⟩, test_no_tag_in_use _ rfl, rfl, test_no_tag_in_use _ rfl, rfl,
    by unfold InOneGranule; decide, by unfold InOneGranule; decide, by decide⟩

theorem test_hyps_DecodeSequence_window :
    ¬TagInUse (windowed window false) request ∧ InOneGranule request ∧
    (windowed window false).windowFor request.address = some 0 ∧ Permitted window request ∧
    ¬Permitted { window with initiatorMask := 0xFFFD } request ∧
    (windowed { window with kind := .steering } true).windowFor request.address = some 0 ∧
    Permitted { window with kind := .steering } request ∧
    ((windowed window false).win 0).guarded = true ∧ request.direction = .read ∧
    ((windowed window false).dom 0).contentsValid = false ∧
    ¬(((windowed window true).win 0).guarded = true ∧ request.direction = .read ∧
      ((windowed window true).dom 0).contentsValid = false) :=
  ⟨test_no_tag_in_use _ rfl, by unfold InOneGranule; decide, by decide, ⟨rfl, by decide⟩, fun h => absurd h.2 (by decide),
    by decide, ⟨rfl, by decide⟩, by decide, rfl, by decide, by decide⟩

theorem test_hyps_DomainStateStep :
    (governing.dom 0).state = .active ∧ IsClear governing (.domain 0) 1 0 ∧ ¬IsClear held (.domain 0) 1 0 ∧
    (let s := governing.setDom 2 { Domain.reset with state := .draining, pin := .holdOn }
     (s.dom 2).state = .draining ∧ (s.dom 2).pin ≠ .holdLow) ∧
    (let s := governing.setDom 2 { Domain.reset with state := .draining, pin := .holdLow }
     (s.dom 2).state = .draining ∧ (s.dom 2).pin = .holdLow) ∧
    ((governing.setDom 2 entering).dom 2).state = .entering ∧ ((governing.setDom 2 dozing).dom 2).state = .low ∧
    ((governing.setDom 2 dozing).dom 2).pin ≠ .holdLow ∧ ((governing.setDom 2 exiting).dom 2).state = .exiting ∧
    ((governing.setDom 2 { Domain.reset with state := .fault }).dom 2).state = .fault ∧ IsClear governing .openPath 1 0 ∧
    ¬IsClear (held.setInit 1 ⟨8, true, 1⟩) .openPath 1 0 ∧ IsClear (held.setInit 1 ⟨8, true, 1⟩) .openPath 1 1 := by
  unfold IsClear
  decide

theorem test_hyps_AcceptancePassesOrDeclines :
    (State.reset.inReset = false ∧ State.reset.portReset = false ∧ State.reset.stage = none ∧
      State.reset.stalled = none ∧ State.reset.entry 0 = none ∧ (∀ j < 0, State.reset.entry j ≠ none) ∧
      (decodeRequest State.reset request).decision = .pass) ∧
    ((crowded (some 63)).entry 63 = none ∧ (∀ j < 63, (crowded (some 63)).entry j ≠ none) ∧
      (decodeRequest (crowded (some 63)) { request with tag := 8 }).decision = .pass) ∧
    (decodeRequest governing { request with address := 0x1FFD }).decision = .decline .boundary := by decide

/-- D0 is LOW and initiator 1 has a quota; a request through `w` must be held. -/
def mustHold (w : Window) (quota : Nat) : State :=
  ((governing.setWin 0 w).setDom 0 { Domain.reset with state := .low }).setInit 1 ⟨quota, false, 0⟩

theorem test_hyps_AcceptanceHoldsOrStalls :
    (let s := mustHold window 1
     s.inReset = false ∧ s.portReset = false ∧ s.stage = none ∧ s.stalled = none ∧ s.entry 0 = none ∧
     (∀ j < 0, s.entry j ≠ none) ∧ (decodeRequest s request).decision = .hold .wake ∧
     (decodeRequest s request).list = some (.domain 0) ∧ RoomFor s request.initiator 0) ∧
    (let s := mustHold window 0
     (decodeRequest s request).decision = .hold .wake ∧ ¬RoomFor s request.initiator 0 ∧
     (decodeRequest s request).policy = .stall) ∧
    (let s := mustHold { window with policy := .decline } 0
     (decodeRequest s request).decision = .hold .wake ∧ ¬RoomFor s request.initiator 0 ∧
     (decodeRequest s request).policy = .decline) := by
  unfold RoomFor
  decide

/-- A steering write whose word has this first byte. -/
def word (b : Byte) : Request :=
  { request with direction := .write, lanes := (Vector.replicate 64 0).set 0 b }

theorem test_hyps_SteeringWordTaken :
    (steeringValue (word 0xFC).lanes).toNat % 4 = 0 ∧ (steeringValue (word 0xFD).lanes).toNat % 4 = 1 ∧
    (steeringValue (word 0xFE).lanes).toNat % 4 = 2 ∧ (steeringValue (word 0xFF).lanes).toNat % 4 = 3 ∧
    ((governing.setWin 9 window).win 9).raisePermitted = true ∧ (governing.win 9).raisePermitted = false := by decide

/-- Entry 0 is PASSING in the decode stage, entry 1 is HELD in the list of D1, and it is somebody's turn. -/
def both (turn : IssueTurn) : State :=
  { (passing.setEntry 1 (some { entry .held 1 with list := some (.domain 1) })).setHeld (.domain 1) [1] with
    issueTurn := turn }

theorem test_hyps_IssueSendsByTurn :
    (governing.stage = none ∧ governing.releaseCandidate = none) ∧
    (passing.stage = some 0 ∧ passing.entry 0 = some (entry .passing 0) ∧
      (entry .passing 0).counted = (entry .passing 0).domain?.isSome ∧ passing.releaseCandidate = none) ∧
    ((both .pass).stage = some 0 ∧ (both .pass).releaseCandidate = some 1 ∧ (both .pass).issueTurn = .pass) ∧
    (heldTwo.releaseCandidate = some 0 ∧ heldTwo.entry 0 = some (entry .held 0) ∧ (entry .held 0).counted = false ∧
      heldTwo.stage = none) ∧
    ((both .release).releaseCandidate = some 1 ∧ (both .release).stage ≠ some 1 ∧ (both .release).issueTurn = .release) := by
  decide

theorem test_hyps_ReleaseCandidateIsOldestEligibleHead :
    heldTwo.releaseCandidate = some 0 ∧ Eligible heldTwo (.domain 0) 0 :=
  ⟨by decide, entry .held 0, [1], by decide, by decide, by decide, fun d hd => by cases hd; decide,
    fun h => absurd h (by decide)⟩

/-- The entries of `heldTwo` are 0 and 1. -/
theorem heldTwo_entries (j : EntryIdx) (f : Entry) (h : heldTwo.entry j = some f) :
    (j = 0 ∧ f = entry .held 0) ∨ (j = 1 ∧ f = entry .held 1) := by
  have key : ∀ j, heldTwo.entry j =
      if j = 0 then some (entry .held 0) else if j = 1 then some (entry .held 1) else none := by decide
  rw [key] at h
  split at h
  · exact .inl ⟨by assumption, by simpa using h.symm⟩
  · split at h
    · exact .inr ⟨by assumption, by simpa using h.symm⟩
    · cases h

theorem test_hyps_OldestHeldEntryIsReleased :
    PoolKept heldTwo ∧ heldTwo.mode = .governing ∧ heldTwo.entry 0 = some (entry .held 0) ∧
    (entry .held 0).state = .held ∧ (entry .held 0).list = some (.domain 0) ∧
    (∀ j f, heldTwo.entry j = some f → f.state = .held → j ≠ 0 → (entry .held 0).order < f.order) ∧
    (∀ d, ListId.domain 0 = .domain d → (heldTwo.dom d).state = .active ∨ (heldTwo.dom d).state = .draining) := by
  refine ⟨test_pool_kept_heldTwo, rfl, by decide, rfl, rfl, fun j f hf _ hj => ?_, fun d hd => by cases hd; decide⟩
  rcases heldTwo_entries j f hf with ⟨rfl, rfl⟩ | ⟨rfl, rfl⟩
  · exact absurd rfl hj
  · decide

theorem test_hyps_ListsAreIssuedInOrder :
    Kept heldTwo ∧ exec .issue heldTwo = .next (after .issue heldTwo) ∧ heldTwo.entry 0 = some (entry .held 0) ∧
    (entry .held 0).state ≠ .issued ∧ (after .issue heldTwo).entry 0 = some (issuedEntry (entry .held 0)) ∧
    (issuedEntry (entry .held 0)).state = .issued ∧ (entry .held 0).list = some (.domain 0) ∧
    heldTwo.entry 1 = some (entry .held 1) ∧ (entry .held 1).list = some (.domain 0) ∧ (entry .held 1).state = .held :=
  ⟨test_kept_heldTwo, rfl, by decide, by decide, by decide, rfl, rfl, by decide, rfl, rfl⟩

/-- The same with initiator 1 strict. -/
theorem test_hyps_ListsAreIssuedInOrder_strict :
    let s := heldTwo.setInit 1 ⟨8, true, 2⟩
    (s.init (entry .held 0).initiator).strict = true ∧ s.entry 0 = some (entry .held 0) ∧
    (after .issue s).entry 0 = some (issuedEntry (entry .held 0)) ∧ s.entry 1 = some (entry .held 1) ∧
    (entry .held 1).initiator = (entry .held 0).initiator := by decide

theorem test_hyps_DownstreamResponseMatched :
    waiting.inReset = false ∧ waiting.forward ≠ none ∧ passing.forward = none ∧ 64 ≤ (response 64).tag.toNat ∧
    (response 63).tag.toNat = (63 : EntryIdx).val := by decide

/-- A DECLINING entry stands beside the entry whose response waits. -/
def sending (turn : ReturnTurn) : State :=
  { waiting.setEntry 1 (some (entry .declining 1)) with returnTurn := turn }

theorem sending_oldest (turn : ReturnTurn) (k : EntryIdx) (g : Entry) (h : (sending turn).entry k = some g)
    (hg : g.state = .declining) : k = 1 := by
  have key : ∀ k, (sending .forward).entry k =
      if k = 0 then some (entry .issued 0) else if k = 1 then some (entry .declining 1) else none := by decide
  have : (sending turn).entry k = (sending .forward).entry k := rfl
  rw [this, key] at h
  split at h
  · cases h; cases hg
  · split at h
    · assumption
    · cases h

theorem test_hyps_ReturnArbiterSendsByTurn :
    (waiting.inReset = false ∧
      waiting.forward = some ⟨0, 0, 0, 2, Vector.replicate 64 0x5A⟩ ∧ waiting.entry 0 = some (entry .issued 0) ∧
      (entry .issued 0).state = .issued ∧ waiting.returnTurn = .forward) ∧
    passing.forward = none ∧
    ((sending .decline).returnTurn = .decline ∧
      ∃ k g, (sending .decline).entry k = some g ∧ g.state = .declining) ∧
    ((sending .decline).entry 1 = some (entry .declining 1) ∧ (entry .declining 1).code = some .asleep ∧
      ∀ k g, (sending .decline).entry k = some g → g.state = .declining → k ≠ 1 →
        (entry .declining 1).order < g.order) ∧
    (¬∃ k g, State.reset.entry k = some g ∧ g.state = .declining) ∧
    ((sending .forward).returnTurn = .forward ∧ (sending .forward).forward = waiting.forward) := by
  refine ⟨by decide, rfl, ⟨rfl, 1, entry .declining 1, by decide, rfl⟩, ⟨by decide, rfl, fun k g h hg hk => ?_⟩, ?_,
    rfl, rfl⟩
  · exact absurd (sending_oldest _ k g h hg) hk
  · rintro ⟨k, g, h, _⟩
    rw [reset_entry] at h
    cases h

theorem test_hyps_ReExaminationDecidesAgain :
    stalled.inReset = false ∧ stalled.stalled = some 0 ∧ stalled.entry 0 = some (entry .stalled 0) ∧
    ({ stalled with prompts := 0 } : State).prompts = 0 ∧ 0 < stalled.prompts ∧
    domainStep stalled 0 true 1 1 = .pass ∧ (entry .stalled 0).counted = false ∧
    domainStep (stalled.setDom 0 exiting) 0 true 1 1 = .hold .wake ∧ (entry .stalled 0).list = some (.domain 0) ∧
    RoomFor (stalled.setDom 0 exiting) 1 1 ∧ ¬RoomFor ((stalled.setDom 0 exiting).setInit 1 ⟨0, false, 1⟩) 1 1 ∧
    domainStep (stalled.setDom 0 { Domain.reset with state := .fault }) 0 true 1 1 = .decline .domainFault := by
  unfold RoomFor
  decide

/-- The deadline of an entry accepted at 0 with a hold limit of 20, at 20 and at 19. -/
theorem test_deadline_passed (x : EntryState) : DeadlinePassed (entry x 0) 20 ∧ ¬DeadlinePassed (entry x 0) 19 := by
  refine ⟨⟨20, rfl, by cases x <;> decide⟩, ?_⟩
  rintro ⟨t, ht, h⟩
  cases ht
  revert h
  cases x <;> decide

theorem test_hyps_HoldDeadlinesDecline :
    held.inReset = false ∧ held.entry 0 = some (entry .held 0) ∧ (entry .held 0).state = .held ∧
    DeadlinePassed (entry .held 0) 20 ∧ ¬DeadlinePassed (entry .held 0) 19 ∧ stalled.stalled = some 0 ∧
    DeadlinePassed (entry .stalled 0) 20 ∧ ¬DeadlinePassed (entry .stalled 0) 19 ∧ held.stalled = none :=
  ⟨rfl, by decide, rfl, (test_deadline_passed _).1, (test_deadline_passed _).2, rfl, (test_deadline_passed _).1,
    (test_deadline_passed _).2, rfl⟩

theorem test_hyps_PortResetDiscardsAndOrphans :
    waiting.inReset = false ∧ waiting.portReset = false ∧ waiting.entry 0 = some (entry .issued 0) ∧
    waiting.entry 1 = none := by decide

theorem test_hyps_ArrivalNoticeByState :
    asleep.inReset = false ∧ firstNotice asleep 1 = none ∧ firstNotice asleep 0 = some ⟨0, true, true⟩ := by decide

theorem test_hyps_TimersAndDrains :
    (let s := { governing.setDom 2 idling with timebase := 16 }
     (s.dom 2).state = .active ∧ (s.dom 2).idleTimer = some ⟨0, 16⟩ ∧ 16 ≤ (s.timebase - 0).toNat) ∧
    ¬16 ≤ ((15 : Word) - 0).toNat ∧
    (let s := governing.setDom 2 { Domain.reset with state := .draining }
     (s.dom 2).state = .draining ∧ (s.dom 2).inFlight = 0 ∧ s.held (.domain 2) = []) ∧
    (governing.dom 2).state ≠ .draining ∧
    (let s := { governing.setDom 2 dozing with timebase := 1000 }
     (s.dom 2).state = .low ∧ (s.dom 2).level = .retain ∧ (s.dom 2).discardable = true ∧
     (s.dom 2).deepTimer = some ⟨0, 1000⟩ ∧ 1000 ≤ (s.timebase - 0).toNat) ∧
    ¬1000 ≤ ((999 : Word) - 0).toNat := by decide

theorem test_hyps_AckTimerExpiryFaults :
    (let s := { slotWith exiting (.taken .raise) with timebase := 1000 }
     s.inReset = false ∧ (s.dom 2).ackTimer = some ⟨0, 1000⟩ ∧ 1000 ≤ (s.timebase - 0).toNat) ∧
    ¬1000 ≤ ((999 : Word) - 0).toNat ∧ (governing.dom 2).ackTimer = none := by decide

theorem test_hyps_GoverningSwitchByPin :
    (2 : DomainId) ∉ governing.switches ∧ (2 : DomainId) ∈ ({ governing with switches := [2] } : State).switches := by
  decide

theorem test_hyps_KeepClaimTaken :
    let s := { governing with claims := [⟨.keep, 2, 9, 1, 7, 1⟩] }
    s.inReset = false ∧ firstClaim s .keep 1 = none ∧ firstClaim s .keep 2 = some ⟨.keep, 2, 9, 1, 7, 1⟩ ∧
    s.mode = .governing ∧ ({ s with mode := .transparent } : State).mode = .transparent := by decide

theorem test_hyps_RaiseClaimTaken :
    let s := claimed Domain.reset
    s.inReset = false ∧ firstClaim s .raise 1 = none ∧ firstClaim s .raise 2 = some ⟨.raise, 2, 9, 1, 7, 0x00005A02⟩ ∧
    s.mode = .governing ∧ ({ s with mode := .transparent } : State).mode = .transparent := by decide

theorem test_hyps_EarliestCommandTransferred :
    let s := (governing.setSlot 1 (.waiting .raise 5)).setSlot 6 (.waiting (.lower .off) 4)
    s.inReset = false ∧ s.slot 6 = .waiting (.lower .off) 4 ∧
    (∀ d' c' n', d' ≠ 6 → s.slot d' = .waiting c' n' → 4 < n') ∧ (∀ d c n, governing.slot d ≠ .waiting c n) := by
  refine ⟨rfl, by decide, fun d' c' n' hd h => ?_, fun d c n h => ?_⟩
  · have key : ∀ d, d ≠ 6 → ((governing.setSlot 1 (.waiting .raise 5)).setSlot 6 (.waiting (.lower .off) 4)).slot d =
        if d = 1 then .waiting .raise 5 else .empty := by decide
    rw [key d' hd] at h
    split at h
    · cases h; decide
    · cases h
  · have key : ∀ d, governing.slot d = .empty := by decide
    rw [key] at h
    cases h

theorem test_hyps_AcknowledgesDelivered :
    (slotWith entering (.taken (.lower .retain))).inReset = false ∧
    (slotWith entering (.taken (.lower .retain))).slot 2 = .taken (.lower .retain) ∧
    (slotWith exiting (.taken .raise)).slot 2 = .taken .raise := by decide

theorem test_hyps_StrayAcknowledgeRecorded :
    governing.inReset = false ∧ (∀ c, governing.slot 2 ≠ .taken c) ∧
    ∀ c, (slotWith entering (.waiting (.lower .retain) 0)).slot 2 ≠ .taken c := by
  refine ⟨rfl, fun c => ?_, fun c => ?_⟩
  · have : governing.slot 2 = .empty := by decide
    rw [this]; nofun
  · have : (slotWith entering (.waiting (.lower .retain) 0)).slot 2 = .waiting (.lower .retain) 0 := by decide
    rw [this]; nofun

/-- 64 records, the newest an OVERFLOW, and a stray acknowledge to be taken. -/
theorem test_hyps_StepKeepsQueueLaw :
    let s := { queued 63 .overflow with pending := [.acknowledge .done 2] }
    QueueKept s ∧ step s = .next (after (.acknowledge .done 2) (queued 63 .overflow)) :=
  ⟨by decide, rfl⟩

/-- D0 is LOW with an outstanding wake notice: RAISE will be handed. -/
theorem test_hyps_StepKeepsOneCommandLaw :
    let s := { asleep with pending := [.arrivalNotice 0] }
    (SlotsKept s ∧ HandingKept s ∧ WakePendingKept s) ∧ step s = .next (after (.arrivalNotice 0) asleep) :=
  ⟨⟨by decide, by decide, by decide⟩, rfl⟩

/-- A STALLED entry, and a re-examination that passes it. -/
theorem test_hyps_StepKeepsPoolLaw :
    let s := { stalled with pending := [.reExamination] }
    PoolKept s ∧ step s = .next (after .reExamination stalled) :=
  ⟨test_pool_kept_stalled, rfl⟩

/-- The laws hold of a state whatever waits in its queue. -/
theorem kept_pending (s : State) (c : List Instr) (h : Kept s) : Kept { s with pending := c } := h

theorem test_hyps_StepKeepsTimersAndTransparency :
    Kept { asleep with pending := [.arrivalNotice 0] } ∧
    step { asleep with pending := [.arrivalNotice 0] } = .next (after (.arrivalNotice 0) asleep) :=
  ⟨kept_pending _ _ test_kept_asleep, rfl⟩

theorem test_hyps_StepKeepsInFlightLaw :
    Kept { heldTwo with pending := [.issue] } ∧
    step { heldTwo with pending := [.issue] } = .next (after .issue heldTwo) :=
  ⟨kept_pending _ _ test_kept_heldTwo, rfl⟩

theorem test_hyps_StepKeepsHoldLaw :
    Kept { asleep with pending := [.acceptance request] } ∧
    step { asleep with pending := [.acceptance request] } = .next (after (.acceptance request) asleep) :=
  ⟨kept_pending _ _ test_kept_asleep, rfl⟩

theorem test_hyps_StepKeepsOrderAndGuards :
    Kept { passing with pending := [.issue] } ∧
    step { passing with pending := [.issue] } = .next (after .issue passing) :=
  ⟨kept_pending _ _ test_kept_passing, rfl⟩

theorem test_hyps_FramesSpellCommands :
    (Instr.lowerAction 2 1).wellFormed = true ∧ (Instr.lowerAction 2 1).frame = some [0x22, 0x02, 0x02, 0x01] ∧
    frameCommand [0x00] = some (.badCommand 0x00) ∧ (Instr.raiseAction 2 0 0).wellFormed = true ∧
    (Instr.raiseAction 2 0 0).frame = some [0x22, 0x02, 0x00, 0x00] := by decide

end Sys2Proof.Tests
end

section
/-! The model's operations in the words of the statements: what an index byte names, a frame's answer, and each move of the
domain state machine as the operation of `Sys2Proof.Claims` it is. -/

namespace Sys2Proof.Proofs

-- One proof after another: the memory of a compile grows with the proofs that run at once.
set_option Elab.async false

open Sys2Proof.Machine Sys2Proof.Claims

/-! ## The meaning of each command, once -/

section Arms

variable (s : State)

theorem exec_powerOnReset_def : exec .powerOnReset s = execPowerOnReset s := rfl
theorem exec_powerOnResetRelease_def : exec .powerOnResetRelease s = execPowerOnResetRelease s := rfl
theorem exec_portReset_def : exec .portReset s = execPortReset s := rfl
theorem exec_clearFault_def (b a : Byte) : exec (.clearFault b a) s = execClearFault b a s := rfl
theorem exec_validate_def (b x : Byte) : exec (.validate b x) s = execValidate b x s := rfl
theorem exec_raiseAction_def (b a x : Byte) : exec (.raiseAction b a x) s = execRaiseAction b a x s := rfl
theorem exec_lowerAction_def (b l : Byte) : exec (.lowerAction b l) s = execLowerAction b l s := rfl
theorem exec_writeDomain_def (b : Byte) (r : Vector Byte 8) : exec (.writeDomain b r) s = execWriteDomain b r s := rfl
theorem exec_flush_def (b x : Byte) : exec (.flush b x) s = execFlush b x s := rfl
theorem exec_arrivalNotice_def (d : DomainId) : exec (.arrivalNotice d) s = execArrivalNotice d s := rfl
theorem exec_keepClaim_def (d : DomainId) : exec (.keepClaim d) s = execKeepClaim d s := rfl
theorem exec_raiseClaim_def (d : DomainId) : exec (.raiseClaim d) s = execRaiseClaim d s := rfl
theorem exec_idleTimerExpiry_def (d : DomainId) : exec (.idleTimerExpiry d) s = execIdleTimerExpiry d s := rfl
theorem exec_drainCompletion_def (d : DomainId) : exec (.drainCompletion d) s = execDrainCompletion d s := rfl
theorem exec_deepTimerExpiry_def (d : DomainId) : exec (.deepTimerExpiry d) s = execDeepTimerExpiry d s := rfl
theorem exec_ackTimerExpiry_def (d : DomainId) : exec (.ackTimerExpiry d) s = execAckTimerExpiry d s := rfl
theorem exec_governingSwitchTaken_def (d : DomainId) : exec (.governingSwitchTaken d) s = execGoverningSwitchTaken d s := rfl
theorem exec_acknowledge_def (o : AckOutcome) (d : DomainId) : exec (.acknowledge o d) s = execAcknowledge o d s := rfl
theorem exec_timebaseAdvance_def : exec .timebaseAdvance s = execTimebaseAdvance s := rfl
theorem exec_acceptance_def (r : Request) : exec (.acceptance r) s = execAcceptance r s := rfl

end Arms

/-! ## Bytes and frames -/

@[simp] theorem domainOf?_ofNat (d : DomainId) : domainOf? (BitVec.ofNat 8 d.val) = some d := by
  have hd : d.val % 256 = d.val := Nat.mod_eq_of_lt (by omega)
  simp [domainOf?, hd]

theorem domainOf?_eq_none {b : Byte} (h : 8 ≤ b.toNat) : domainOf? b = none := by
  simp [domainOf?, Nat.not_lt.mpr h]

theorem byte_eq_of_toNat {b : Byte} {n : Nat} (h : b.toNat = n) : b = BitVec.ofNat 8 n := by
  subst h; simp

theorem mode_eq_governing {m : Mode} (h : m ≠ .transparent) : m = .governing := by
  cases m <;> simp_all

theorem reply_eq_answered (status : Status) (bytes : List Byte) (s : State) :
    reply status bytes s = answered (status.value :: bytes) s := rfl

theorem actionRefused_eq (status : Status) (s : State) : actionRefused status s = answered [status.value] s := rfl

theorem state_byte (x : DomainState) : x.byte = BitVec.ofNat 8 (stateCode x) := by
  cases x <;> rfl

theorem actionReply_eq (d : DomainId) (count : Nat) (s : State) :
    actionReply d count s =
      answered [0x00, BitVec.ofNat 8 (stateCode (s.dom d).state), BitVec.ofNat 8 count] s := by
  simp only [actionReply, state_byte, reply_eq_answered, Status.value]

theorem actionReply_zero (d : DomainId) (s : State) :
    actionReply d 0 s = answered [0x00, BitVec.ofNat 8 (stateCode (s.dom d).state), 0] s :=
  actionReply_eq d 0 s

/-! ## Timers -/

theorem idleLoaded_eq_idleFull (s : State) {x : Domain} (h : x.state = .active) :
    idleLoaded s.mode s.timebase x = idleFull s x := by
  simp [idleLoaded, idleRuns, idleFull, h, Config.idleUnit, and_assoc]

theorem deepLoaded_eq_deepFull (s : State) {x : Domain} (hs : x.state = .low) (hl : x.level = .retain) :
    deepLoaded s.mode s.timebase x = deepFull s x := by
  simp [deepLoaded, deepRuns, deepFull, hs, hl, Config.deepUnit, and_assoc]

theorem deepLoaded_off (mode : Mode) (now : Word) {x : Domain} (hl : x.level = .off) :
    deepLoaded mode now x = none := by
  simp [deepLoaded, deepRuns, hl]

theorem timerDue_iff (o : Option Timer) (now : Word) :
    timerDue o now = true ↔ ∃ t, o = some t ∧ t.limit ≤ (now - t.load).toNat := by
  cases o with
  | none => simp [timerDue]
  | some t => 
    simp only [timerDue, Option.some.injEq, exists_eq_left']
    exact decide_eq_true_iff

/-! ## Moves of the domain state machine -/

theorem reloadIdle_eq {d : DomainId} {s : State} (h : (s.dom d).state = .active) :
    reloadIdle d s = s.setDom d { s.dom d with idleTimer := idleFull s (s.dom d) } := by
  simp only [reloadIdle, idleLoaded_eq_idleFull s h]

theorem loadDeep_eq {d : DomainId} {s : State} (hs : (s.dom d).state = .low) (hl : (s.dom d).level = .retain) :
    loadDeep d s = s.setDom d { s.dom d with deepTimer := deepFull s (s.dom d) } := by
  simp only [loadDeep, deepLoaded_eq_deepFull s hs hl]

theorem enterActive_eq (d : DomainId) (s : State) : enterActive d s = active d s := by
  have key : ∀ y : Domain, y.state = .active → reloadIdle d (s.setDom d y) = s.setDom d { y with idleTimer := idleFull s y } := by
    intro y hy
    rw [reloadIdle_eq (by simpa using hy), State.setDom_setDom]
    simp [idleFull]
  simp only [enterActive, active]
  rw [key _ rfl]
  cases hl : s.held (.domain d) with
  | nil => rfl
  | cons i is => rfl

theorem handLower_eq (d : DomainId) (l : Level) (s : State) :
    handLower d l s = lowering d (if (s.dom d).discardable = true then l else .retain) s := rfl

theorem handRaise_eq (d : DomainId) (s : State) : handRaise d s = waking d s := rfl

theorem enterDraining_eq (d : DomainId) (l : Level) (s : State) :
    enterDraining d l s = draining d (if (s.dom d).pin = .holdLow then (s.dom d).pinLevel else l) s := rfl

theorem drainComplete_iff (d : DomainId) (s : State) :
    s.drainComplete d = true ↔
      (s.dom d).state = .draining ∧ (s.dom d).inFlight = 0 ∧ s.held (.domain d) = [] := by
  simp [State.drainComplete, and_assoc]

theorem completeDrain_eq (d : DomainId) (s : State) : completeDrain d s = drained d s := by
  simp only [completeDrain, drained, drainComplete_iff, handLower_eq]

theorem takeUp_eq (d : DomainId) (s : State) : takeUp d s = raised d s := by
  unfold takeUp raised
  cases h : (s.dom d).state
  case active => exact reloadIdle_eq h
  case draining => exact enterActive_eq d s
  case entering => rfl
  case low => exact handRaise_eq d s
  case exiting => rfl
  case fault => rfl

/-! ## What the moves leave in the records -/

@[simp] theorem active_dom (d : DomainId) (s : State) :
    (active d s).dom d =
      { s.dom d with
        state := .active, idleTimer := idleFull s (s.dom d), deepTimer := none, ackTimer := none, wakePending := false } :=
  State.dom_setDom_same s d _

@[simp] theorem handed_dom (c d : DomainId) (k : PowerCommand) (s : State) : (handed d k s).dom c = s.dom c := rfl

@[simp] theorem handed_slot (d : DomainId) (k : PowerCommand) (s : State) :
    (handed d k s).slot d = .waiting k s.nextHanding :=
  State.slot_setSlot_same s d _

theorem handed_slot_ne {c d : DomainId} (h : c ≠ d) (k : PowerCommand) (s : State) :
    (handed d k s).slot c = s.slot c :=
  State.slot_setSlot_ne s h _

end Sys2Proof.Proofs
end

section
/-! The domain records after reset, and the management commands on domains. -/

namespace Sys2Proof.Proofs

-- One proof after another: the memory of a compile grows with the proofs that run at once.
set_option Elab.async false

open Sys2Proof.Machine Sys2Proof.Claims

/-! ## Power-on reset -/

theorem reset_dom (d : DomainId) : State.reset.dom d = Domain.reset := by
  simp [State.dom, State.reset]

theorem reset_held (l : ListId) : State.reset.held l = [] := by
  cases l <;> simp [State.held, State.reset]

theorem powerOn_eq (b : Bool) (s : State) :
    powerOn b s =
      { State.reset with
        pending := s.pending, inReset := b, portReset := s.portReset, sent := s.sent
        port := ⟨if s.port.phase = .idle then .idle else .ignoring, false, [], 0⟩ } := rfl

theorem setPortReset_self {s : State} (h : s.portReset = true) : { s with portReset := true } = s := by
  cases s; simp_all

/-- Settles O4: the power-on values, and neither edge of RESETN adds to the record of what has been sent. -/
theorem resetDomainRecords : Obligations.ResetDomainRecords := by
  refine ⟨reset_dom, fun l _ => reset_held l, rfl, fun s t h => ?_⟩
  rcases h with h | h
  · obtain rfl := Host.Outcome.next.inj h
    split <;> rfl
  · obtain rfl := Host.Outcome.next.inj h
    split <;> rfl

/-- Settles O6: both edges of RESETN put the part at `powerOn`, and PORTRST is only followed. -/
theorem powerOnResetValues : Obligations.PowerOnResetValues := by
  intro s
  refine ⟨fun h => ?_, fun h => ?_, fun h => ?_, fun h => ?_, fun h => ?_, rfl⟩
  · simp [exec_powerOnReset_def, execPowerOnReset, h, powerOn_eq]
  · simp [exec_powerOnResetRelease_def, execPowerOnResetRelease, h, powerOn_eq]
  · simp [exec_powerOnReset_def, execPowerOnReset, h]
  · simp [exec_powerOnResetRelease_def, execPowerOnResetRelease, h]
  · cases hp : s.portReset
    · simp [exec_portReset_def, execPortReset, h, hp]
    · simp [exec_portReset_def, execPortReset, hp, setPortReset_self]

/-! ## CLEAR FAULT and VALIDATE -/

theorem assumptionOf?_eq_none {a : Byte} (h : 3 ≤ a.toNat) : assumptionOf? a = none := by
  have h0 : a ≠ 0 := by rintro rfl; simp at h
  have h1 : a ≠ 1 := by rintro rfl; simp at h
  have h2 : a ≠ 2 := by rintro rfl; simp at h
  rw [assumptionOf?, if_neg h0, if_neg h1, if_neg h2]

theorem assumptionOf?_isSome {a : Byte} (h : a.toNat < 3) : ∃ x, assumptionOf? a = some x := by
  have ha : a.toNat = 0 ∨ a.toNat = 1 ∨ a.toNat = 2 := by omega
  rcases ha with h | h | h <;> obtain rfl := byte_eq_of_toNat h
  · exact ⟨.active, rfl⟩
  · exact ⟨.lowRetain, rfl⟩
  · exact ⟨.lowOff, rfl⟩

theorem exec_clearFault (d : DomainId) {a : Byte} {x : Assumption} (ha : assumptionOf? a = some x) {s : State}
    (hf : s.awaits (some .domainAction) = true) :
    exec (.clearFault (BitVec.ofNat 8 d.val) a) s =
      .next
        (if s.mode = .transparent ∨ (s.dom d).state ≠ .fault then answered [0x04] s
         else actionReply d 0 (takeAssumption d x s)) := by
  simp only [exec_clearFault_def, execClearFault, inFrame_open hf, domainOf?_ofNat, ha, actionRefused_eq, Status.value]
  by_cases hm : s.mode = .transparent
  · simp [hm]
  · by_cases hs : (s.dom d).state = .fault <;> simp [hm, hs]

theorem takeAssumption_lowRetain (d : DomainId) (s : State) :
    takeAssumption d .lowRetain s =
      s.setDom d
        { s.dom d with state := .low, level := .retain, wakePending := false, deepTimer := deepFull s (s.dom d) } := by
  simp only [takeAssumption]
  rw [loadDeep_eq (by simp) (by simp), State.setDom_setDom]
  simp [deepFull]

/-- Settles O20: by the argument byte, the mode and the state. -/
theorem clearFaultTakesTheAssumption : Obligations.ClearFaultTakesTheAssumption := by
  intro s hf
  refine ⟨fun b a hb => ?_, fun d => ⟨fun a ha => ?_, fun a ha hs => ?_, fun hm hs => ⟨?_, ?_, ?_⟩⟩⟩
  · simp [exec_clearFault_def, execClearFault, hf, domainOf?_eq_none hb, actionRefused_eq, Status.value]
  · simp [exec_clearFault_def, execClearFault, hf, assumptionOf?_eq_none ha, actionRefused_eq, Status.value]
  · obtain ⟨x, hx⟩ := assumptionOf?_isSome ha
    rw [exec_clearFault d hx hf, if_pos hs]
  · rw [exec_clearFault (x := .active) d rfl hf, if_neg (by simp [hm, hs]), actionReply_eq]
    simp [takeAssumption, enterActive_eq, stateCode]
  · rw [exec_clearFault (x := .lowRetain) d rfl hf, if_neg (by simp [hm, hs]), actionReply_eq,
      takeAssumption_lowRetain]
    simp [stateCode]
  · rw [exec_clearFault (x := .lowOff) d rfl hf, if_neg (by simp [hm, hs]), actionReply_eq]
    simp [takeAssumption, stateCode]

/-- Settles O21: VALIDATE stores the flag whatever the state and the mode. -/
theorem validateSetsContentsValid : Obligations.ValidateSetsContentsValid := by
  refine fun s argument hf => ⟨fun b hb => ?_, fun d => ?_⟩
  · simp [exec_validate_def, execValidate, hf, domainOf?_eq_none hb, actionRefused_eq, Status.value]
  · simp [exec_validate_def, execValidate, hf, actionReply_eq]

/-! ## The RAISE action -/

theorem isOtherAction_one : isOtherAction 1 = false := rfl

theorem isOtherAction_iff (a : Byte) : isOtherAction a = true ↔ 2 ≤ a.toNat ∧ a.toNat ≤ 5 := by
  simp [isOtherAction]

/-- The RAISE action is refused in FAULT and, outside ACTIVE and EXITING, under a HOLD_LOW pin (R26). -/
theorem takeRaise_eq (d : DomainId) (s : State) :
    takeRaise d s =
      if (s.dom d).state = .fault ∨
          ((s.dom d).pin = .holdLow ∧
            ((s.dom d).state = .draining ∨ (s.dom d).state = .entering ∨ (s.dom d).state = .low)) then
        answered [0x04] s
      else
        answered [0x00, BitVec.ofNat 8 (stateCode ((raised d s).dom d).state), 0] (raised d s) := by
  simp only [takeRaise]
  cases h : (s.dom d).state <;> simp [actionRefused_eq, actionReply_eq, takeUp_eq, Status.value]

theorem exec_raiseAction_one (d : DomainId) (argument : Byte) {s : State}
    (hf : s.awaits (some .domainAction) = true) :
    exec (.raiseAction (BitVec.ofNat 8 d.val) 1 argument) s =
      .next (if s.mode = .transparent then answered [0x04] s else takeRaise d s) := by
  simp only [exec_raiseAction_def, execRaiseAction, inFrame_open hf, domainOf?_ofNat, isOtherAction_one, actionRefused_eq, Status.value,
    ne_eq, not_true_eq_false, if_false, Bool.false_eq_true]

/-- Settles O18: by the action byte, then by the mode, the state and the pin. -/
theorem raiseActionTaken : Obligations.RaiseActionTaken := by
  refine fun s argument hf => ⟨fun b action hb ho => ?_, fun d => ⟨fun action ha => ?_, fun action h2 h5 => ?_,
    fun hm => ?_, fun hm => ⟨fun hr => ?_, fun hs hr => ?_⟩⟩⟩
  · simp [exec_raiseAction_def, execRaiseAction, hf, domainOf?_eq_none hb, ho, actionRefused_eq, Status.value]
  · have ho : isOtherAction action = false := by
      rw [Bool.eq_false_iff, ne_eq, isOtherAction_iff]; omega
    have h1 : action ≠ 1 := by rintro rfl; simp at ha
    simp only [exec_raiseAction_def, execRaiseAction, inFrame_open hf, domainOf?_ofNat, ho, ne_eq, h1, not_false_eq_true, if_true,
      Bool.false_eq_true, if_false, actionRefused_eq, Status.value]
  · have ho : isOtherAction action = true := (isOtherAction_iff action).mpr ⟨h2, h5⟩
    simp [exec_raiseAction_def, execRaiseAction, hf, ho]
  · rw [exec_raiseAction_one d argument hf, if_pos hm]
  · rw [exec_raiseAction_one d argument hf, if_neg (by simp [hm]), takeRaise_eq, if_pos hr]
  · rw [exec_raiseAction_one d argument hf, if_neg (by simp [hm]), takeRaise_eq, if_neg (by simp only [hs, false_or, hr, not_false_eq_true])]

/-! ## The LOWER action -/

theorem levelOf?_eq_none {b : Byte} (h : 2 ≤ b.toNat) : levelOf? b = none := by
  have h0 : b ≠ 0 := by rintro rfl; simp at h
  have h1 : b ≠ 1 := by rintro rfl; simp at h
  rw [levelOf?, if_neg h0, if_neg h1]

theorem levelOf?_code (l : Level) : levelOf? (if l = .off then 1 else 0) = some l := by
  cases l <;> rfl

theorem exec_lowerAction (d : DomainId) (l : Level) {s : State} (hf : s.awaits (some .domainAction) = true) :
    exec (.lowerAction (BitVec.ofNat 8 d.val) (if l = .off then 1 else 0)) s =
      .next (if s.mode = .transparent then answered [0x04] s else takeLower d l s) := by
  simp only [exec_lowerAction_def, execLowerAction, inFrame_open hf, domainOf?_ofNat, levelOf?_code, actionRefused_eq, Status.value]

theorem mismatch_iff (x : Domain) (l : Level) : mismatch x l = true ↔ x.pin = .holdLow ∧ x.pinLevel ≠ l := by
  simp [mismatch]

theorem offRefused_iff (x : Domain) (l : Level) : offRefused x l = true ↔ l = .off ∧ x.discardable = false := by
  simp [offRefused]

/-- Where the pin's level agrees and the level is permitted, a LOWER of an ACTIVE domain drains it at that level, and where
both counts are 0 hands the LOWER at it. -/
theorem completeDrain_enterDraining {d : DomainId} {l : Level} {s : State}
    (hp : (s.dom d).pin = .holdLow → (s.dom d).pinLevel = l) (hl : l = .off → (s.dom d).discardable = true) :
    completeDrain d (enterDraining d l s) =
      if (s.dom d).inFlight = 0 ∧ s.held (.domain d) = [] then lowering d l s else draining d l s := by
  have hd : enterDraining d l s = draining d l s := by
    rw [enterDraining_eq]
    split
    · rw [hp ‹_›]
    · rfl
  have hlevel : (if (s.dom d).discardable = true then l else .retain) = l := by
    cases l
    · simp
    · simp [hl rfl]
  rw [hd, completeDrain_eq]
  simp [drained, draining, lowering, hlevel, State.setDom_setDom]

theorem lowering_off_of_discardable {d : DomainId} {s : State} (h : (s.dom d).discardable = true) :
    handLower d .off s = lowering d .off s := by
  rw [handLower_eq, if_pos h]

/-- A LOWER of an ACTIVE domain (R27). -/
theorem takeLower_active {d : DomainId} {s : State} (h : (s.dom d).state = .active) (l : Level) :
    takeLower d l s =
      if (s.dom d).pin = .holdOn ∨ ((s.dom d).pin = .holdLow ∧ (s.dom d).pinLevel ≠ l) then answered [0x04] s
      else if l = .off ∧ (s.dom d).discardable = false then answered [0x03] s
      else if (s.dom d).inFlight = 0 ∧ s.held (.domain d) = [] then actionReply d 0 (lowering d l s)
      else actionReply d 0 (draining d l s) := by
  simp only [takeLower, h, mismatch_iff, offRefused_iff, actionRefused_eq, Status.value]
  split
  · rfl
  split
  · rfl
  rename_i hbusy hlost
  rw [completeDrain_enterDraining (fun hp => by_contra fun hl => hbusy (.inr ⟨hp, hl⟩))
    (fun hl => by simpa [hl] using hlost)]
  split <;> rfl

/-- A LOWER of a LOW domain (R27). -/
theorem takeLower_low {d : DomainId} {s : State} (h : (s.dom d).state = .low) (l : Level) :
    takeLower d l s =
      if (s.dom d).level = .off then
        (if l = .retain ∨ ((s.dom d).pin = .holdLow ∧ (s.dom d).pinLevel ≠ l) then answered [0x04] s
         else actionReply d 0 s)
      else if l = .retain then
        (if (s.dom d).pin = .holdLow ∧ (s.dom d).pinLevel ≠ l then answered [0x04] s else actionReply d 0 s)
      else if (s.dom d).pin = .holdOn ∨ ((s.dom d).pin = .holdLow ∧ (s.dom d).pinLevel ≠ l) then answered [0x04] s
      else if l = .off ∧ (s.dom d).discardable = false then answered [0x03] s
      else actionReply d 0 (lowering d .off s) := by
  simp only [takeLower, h, mismatch_iff, offRefused_iff, actionRefused_eq, Status.value]
  cases (s.dom d).level <;> cases l
  case retain.off =>
    simp only [reduceCtorEq, if_false, true_and]
    split
    · rfl
    split
    · rfl
    rw [lowering_off_of_discardable (by simp_all)]
  all_goals simp

/-- Settles O19: by the frame's bytes and the mode, and then by the rows of R27. -/
theorem lowerActionTaken : Obligations.LowerActionTaken := by
  refine fun s hf => ⟨fun b level hb => ?_, fun d => ⟨fun level hl => ?_, fun hm l => ?_, fun hm l => ?_⟩⟩
  · simp [exec_lowerAction_def, execLowerAction, hf, domainOf?_eq_none hb, actionRefused_eq, Status.value]
  · simp [exec_lowerAction_def, execLowerAction, hf, levelOf?_eq_none hl, actionRefused_eq, Status.value]
  · rw [exec_lowerAction d l hf, if_pos hm]
  · rw [exec_lowerAction d l hf, if_neg (by simp [hm])]
    simp only [Host.Outcome.next.injEq]
    cases h : (s.dom d).state
    case active => simp only [takeLower_active h, actionReply_zero]
    case low => simp only [takeLower_low h, actionReply_zero, h]
    all_goals simp only [takeLower, h, mismatch_iff, offRefused_iff, actionRefused_eq, actionReply_zero, Status.value]

end Sys2Proof.Proofs
end

section
/-! WRITE DOMAIN (R24). -/

namespace Sys2Proof.Proofs

-- One proof after another: the memory of a compile grows with the proofs that run at once.
set_option Elab.async false

open Sys2Proof.Machine Sys2Proof.Claims

/-! ## The record of a WRITE DOMAIN -/

theorem toNat_append_bytes (a b : Byte) : (a ++ b : BitVec 16).toNat = a.toNat * 256 + b.toNat := by
  rw [BitVec.toNat_append, ← Nat.shiftLeft_add_eq_or_of_lt b.isLt, Nat.shiftLeft_eq]

theorem append_bytes_eq_zero_iff (a b : Byte) : (a ++ b : BitVec 16) = 0 ↔ a.toNat * 256 + b.toNat = 0 := by
  rw [← toNat_append_bytes, ← BitVec.toNat_inj]
  rfl

theorem toNat_extract_two (b : Byte) (k : Nat) : (b.extractLsb' k 2).toNat = (b.toNat / 2 ^ k) % 4 := by
  simp [BitVec.extractLsb'_toNat, Nat.shiftRight_eq_div_pow]

theorem getLsbD_zero_iff (b : Byte) : b.getLsbD 0 = false ↔ b.toNat % 2 = 0 := by
  simp [BitVec.getLsbD, Nat.testBit_zero]

/-- What the bits of a pin name, by their value (R184). -/
theorem pinOf?_cases (x : BitVec 2) :
    (pinOf? x = some .none ∧ x.toNat = 0) ∨ (pinOf? x = some .holdOn ∧ x.toNat = 1) ∨
    (pinOf? x = some .holdLow ∧ x.toNat = 2) ∨ (pinOf? x = none ∧ x.toNat = 3) := by
  revert x; decide

/-- What the bits of a pin level name, by their value (R184). -/
theorem pinLevelOf?_cases (x : BitVec 2) :
    (pinLevelOf? x = some .retain ∧ x.toNat = 0) ∨ (pinLevelOf? x = some .off ∧ x.toNat = 1) ∨
    (pinLevelOf? x = none ∧ 2 ≤ x.toNat) := by
  revert x; decide

/-- The ack limit of a record has a meaning (R24). -/
theorem ackLimit_refused_iff (a b : Byte) :
    ((a ++ b : BitVec 16) = 0 ∨ Config.maxAckLimit < (a ++ b : BitVec 16).toNat) ↔
      a.toNat * 256 + b.toNat = 0 ∨ 4095 < a.toNat * 256 + b.toNat := by
  rw [append_bytes_eq_zero_iff, toNat_append_bytes]

theorem configOf?_eq_none_iff (r : Vector Byte 8) :
    configOf? r = none ↔
      r[4].toNat * 256 + r[5].toNat = 0 ∨ 4095 < r[4].toNat * 256 + r[5].toNat ∨ (r[6].toNat / 2) % 4 = 3 ∨
      2 ≤ (r[6].toNat / 8) % 4 ∨
      ((r[6].toNat / 2) % 4 = 2 ∧ (r[6].toNat / 8) % 4 = 1 ∧ r[6].toNat % 2 = 0) := by
  have hp : (r[6].toNat / 2) % 4 = (r[6].extractLsb' 1 2).toNat := (toNat_extract_two r[6] 1).symm
  have hl : (r[6].toNat / 8) % 4 = (r[6].extractLsb' 3 2).toNat := (toNat_extract_two r[6] 3).symm
  rw [← or_assoc, ← ackLimit_refused_iff, ← getLsbD_zero_iff, hp, hl]
  simp only [configOf?]
  generalize r[6].extractLsb' 1 2 = x
  generalize r[6].extractLsb' 3 2 = y
  by_cases hack : (r[4] ++ r[5] : BitVec 16) = 0 ∨ Config.maxAckLimit < (r[4] ++ r[5] : BitVec 16).toNat
  · rcases pinOf?_cases x with ⟨hx, _⟩ | ⟨hx, _⟩ | ⟨hx, _⟩ | ⟨hx, _⟩ <;>
    rcases pinLevelOf?_cases y with ⟨hy, _⟩ | ⟨hy, _⟩ | ⟨hy, _⟩ <;>
    simp only [hx, hy, hack, true_or, if_true]
  · rcases pinOf?_cases x with ⟨hx, hx'⟩ | ⟨hx, hx'⟩ | ⟨hx, hx'⟩ | ⟨hx, hx'⟩ <;>
    rcases pinLevelOf?_cases y with ⟨hy, hy'⟩ | ⟨hy, hy'⟩ | ⟨hy, hy'⟩ <;>
    simp only [hx, hy, hack, false_or, hx', hy'] <;> simp

theorem configOf?_eq_some {r : Vector Byte 8} {c : DomainConfig} (h : configOf? r = some c) :
    pinOf? (r[6].extractLsb' 1 2) = some c.pin ∧ pinLevelOf? (r[6].extractLsb' 3 2) = some c.pinLevel ∧
    c.idleLimit = r[0] ++ r[1] ∧ c.deepLimit = r[2] ++ r[3] ∧ c.ackLimit = r[4] ++ r[5] ∧
    c.discardable = r[6].getLsbD 0 ∧ (c.pin = .holdLow → c.pinLevel = .off → c.discardable = true) := by
  simp only [configOf?] at h
  split at h
  · rename_i pin level hp hl
    split at h
    · cases h
    split at h
    · cases h
    rename_i hoff
    cases h
    exact ⟨hp, hl, rfl, rfl, rfl, rfl, fun h₁ h₂ => by_contra fun h₃ => hoff ⟨h₁, h₂, by simpa using h₃⟩⟩
  · cases h

theorem configOf?_off_discardable {r : Vector Byte 8} {c : DomainConfig} (h : configOf? r = some c) :
    c.pin = .holdLow → c.pinLevel = .off → c.discardable = true := by
  obtain ⟨_, _, _, _, _, _, hoff⟩ := configOf?_eq_some h
  exact hoff

theorem pinOf?_eq_holdOn_iff {x : BitVec 2} {p : Pin} (h : pinOf? x = some p) : p = .holdOn ↔ x.toNat = 1 := by
  revert x; cases p <;> decide

theorem pinOf?_eq_holdLow_iff {x : BitVec 2} {p : Pin} (h : pinOf? x = some p) : p = .holdLow ↔ x.toNat = 2 := by
  revert x; cases p <;> decide

theorem pinLevelOf?_eq_off_iff {x : BitVec 2} {l : Level} (h : pinLevelOf? x = some l) : l = .off ↔ x.toNat = 1 := by
  revert x; cases l <;> decide

theorem pinRefused_iff (x : Domain) (c : DomainConfig) :
    pinRefused x c = true ↔
      c.pin = .holdLow ∧ (x.state = .entering ∨ x.state = .exiting ∨ x.state = .fault) := by
  simp [pinRefused, or_assoc]

theorem exec_writeDomain (d : DomainId) {r : Vector Byte 8} {c : DomainConfig} {s : State}
    (hf : s.awaits (some .writeDomain) = true) (hc : configOf? r = some c) :
    exec (.writeDomain (BitVec.ofNat 8 d.val) r) s =
      .next
        (if c.pin = .holdLow ∧ ((s.dom d).state = .entering ∨ (s.dom d).state = .exiting ∨ (s.dom d).state = .fault) then
          answered [0x04] s
        else answered [0x00] (takeConfig d c s)) := by
  simp only [exec_writeDomain_def, execWriteDomain, inFrame_open hf, domainOf?_ofNat, hc, pinRefused_iff, reply_eq_answered, Status.value]

/-- Settles O16. -/
theorem writeDomainRefused : Obligations.WriteDomainRefused := by
  refine ⟨configOf?_eq_none_iff, fun r c hc => ?_, fun s hf => ⟨fun b r hb => ?_, fun d => ⟨fun r hr => ?_, fun r c hc hp hs => ?_⟩⟩⟩
  · obtain ⟨hp, hl, hi, hd, ha, hx, _⟩ := configOf?_eq_some hc
    rw [hi, hd, ha, toNat_append_bytes, toNat_append_bytes, toNat_append_bytes, pinOf?_eq_holdOn_iff hp,
      pinOf?_eq_holdLow_iff hp, pinLevelOf?_eq_off_iff hl, toNat_extract_two, toNat_extract_two]
    exact ⟨rfl, rfl, rfl, hx, .rfl, .rfl, .rfl⟩
  · simp [exec_writeDomain_def, execWriteDomain, hf, domainOf?_eq_none hb, reply_eq_answered, Status.value]
  · simp [exec_writeDomain_def, execWriteDomain, hf, hr, reply_eq_answered, Status.value]
  · rw [exec_writeDomain d hf hc, if_pos ⟨hp, hs⟩]

/-! ## A WRITE DOMAIN that is taken -/

theorem storeConfig_eq (d : DomainId) (c : DomainConfig) (s : State) :
    storeConfig d c s = s.setDom d (stored c (s.dom d)) := rfl

theorem applyLimits_active {d : DomainId} {s : State} (h : (s.dom d).state = .active) :
    applyLimits d s = s.setDom d { s.dom d with idleTimer := idleFull s (s.dom d) } := by
  have key : applyLimits d s = reloadIdle d s := by simp only [applyLimits, h]
  rw [key, reloadIdle_eq h]

theorem applyLimits_draining {d : DomainId} {s : State} (h : (s.dom d).state = .draining) :
    applyLimits d s =
      s.setDom d
        { s.dom d with
          level :=
            if (s.dom d).level = .off ∧ (s.dom d).discardable = false then .retain else (s.dom d).level } := by
  simp only [applyLimits, h]
  split
  · rfl
  · rw [← h]; exact (State.setDom_self s d).symm

theorem applyLimits_low {d : DomainId} {s : State} (h : (s.dom d).state = .low) :
    applyLimits d s =
      if (s.dom d).level = .retain then s.setDom d { s.dom d with deepTimer := deepFull s (s.dom d) } else s := by
  have key : applyLimits d s = if (s.dom d).level = .retain then loadDeep d s else s := by
    simp only [applyLimits, h]
  rw [key]
  split
  · exact loadDeep_eq h ‹_›
  · rfl

theorem applyPin_none {d : DomainId} {s : State} (h : (s.dom d).pin = .none) : applyPin d s = s := by
  simp only [applyPin, h]

/-- A stored HOLD_ON by the state (R22). -/
theorem applyPin_holdOn {d : DomainId} {s : State} (h : (s.dom d).pin = .holdOn) :
    applyPin d s =
      match (s.dom d).state with
      | .draining => active d s
      | .entering => s.setDom d { s.dom d with wakePending := true }
      | .low => waking d s
      | .active => s
      | .exiting => s
      | .fault => s := by
  simp only [applyPin, h, enterActive_eq, handRaise_eq, setWakePending]
  cases (s.dom d).state <;> rfl

/-- A stored HOLD_LOW by the state (R23). -/
theorem applyPin_holdLow {d : DomainId} {s : State} (h : (s.dom d).pin = .holdLow)
    (ho : (s.dom d).pinLevel = .off → (s.dom d).discardable = true) :
    applyPin d s =
      match (s.dom d).state with
      | .active => draining d (s.dom d).pinLevel s
      | .draining => s.setDom d { s.dom d with level := (s.dom d).pinLevel }
      | .low => if (s.dom d).level = .retain ∧ (s.dom d).pinLevel = .off then lowering d .off s else s
      | .entering => s
      | .exiting => s
      | .fault => s := by
  simp only [applyPin, h, enterDraining_eq]
  cases (s.dom d).state
  case low =>
    dsimp only
    split
    · rw [handLower_eq, ho (‹_ ∧ _›).2, if_pos rfl]
    · rfl
  all_goals rfl

section LimitsThenPin

variable {d : DomainId} {s : State}
  (ho : (s.dom d).pin = .holdLow → (s.dom d).pinLevel = .off → (s.dom d).discardable = true)

include ho

theorem limits_then_pin_active (h : (s.dom d).state = .active) :
    applyPin d (applyLimits d s) =
      match (s.dom d).pin with
      | .none => s.setDom d { s.dom d with idleTimer := idleFull s (s.dom d) }
      | .holdOn => s.setDom d { s.dom d with idleTimer := none }
      | .holdLow => draining d (s.dom d).pinLevel s := by
  rw [applyLimits_active h]
  cases hp : (s.dom d).pin
  · exact applyPin_none (by simpa using hp)
  · rw [applyPin_holdOn (by simpa using hp)]
    simp [h, idleFull, hp]
  · rw [applyPin_holdLow (by simpa using hp) (by simpa using ho hp)]
    simp [h, draining, State.setDom_setDom]

theorem limits_then_pin_draining (h : (s.dom d).state = .draining) :
    let level := if (s.dom d).level = .off ∧ (s.dom d).discardable = false then .retain else (s.dom d).level
    applyPin d (applyLimits d s) =
      match (s.dom d).pin with
      | .none => s.setDom d { s.dom d with level := level }
      | .holdOn => active d (s.setDom d { s.dom d with level := level })
      | .holdLow => s.setDom d { s.dom d with level := (s.dom d).pinLevel } := by
  rw [applyLimits_draining h]
  cases hp : (s.dom d).pin
  · exact applyPin_none (by simpa using hp)
  · rw [applyPin_holdOn (by simpa using hp)]
    simp [h]
  · rw [applyPin_holdLow (by simpa using hp) (by simpa using ho hp)]
    simp [h, State.setDom_setDom]

theorem limits_then_pin_low (h : (s.dom d).state = .low) :
    let loaded := s.setDom d { s.dom d with deepTimer := deepFull s (s.dom d) }
    applyPin d (applyLimits d s) =
      match (s.dom d).pin with
      | .none => if (s.dom d).level = .retain then loaded else s
      | .holdOn => waking d s
      | .holdLow =>
        if (s.dom d).level = .off then s else if (s.dom d).pinLevel = .off then lowering d .off s else loaded := by
  rw [applyLimits_low h]
  by_cases hl : (s.dom d).level = .retain
  · rw [if_pos hl]
    cases hp : (s.dom d).pin
    · rw [applyPin_none (by simpa using hp)]
      simp [hl]
    · rw [applyPin_holdOn (by simpa using hp)]
      simp [h, waking, State.setDom_setDom]
    · rw [applyPin_holdLow (by simpa using hp) (by simpa using ho hp)]
      simp [h, hl, lowering, State.setDom_setDom]
  · have hl' : (s.dom d).level = .off := by cases hv : (s.dom d).level <;> simp_all
    rw [if_neg hl]
    cases hp : (s.dom d).pin
    · rw [applyPin_none hp]
      simp [hl]
    · rw [applyPin_holdOn hp]
      simp [h]
    · rw [applyPin_holdLow hp (ho hp)]
      simp [h, hl']

/-- In ENTERING, EXITING and FAULT the limits do nothing, and HOLD_ON asks a domain in ENTERING to come up again. -/
theorem limits_then_pin_off_duty (h : (s.dom d).state = .entering ∨ (s.dom d).state = .exiting ∨ (s.dom d).state = .fault) :
    applyPin d (applyLimits d s) =
      if (s.dom d).pin = .holdOn ∧ (s.dom d).state = .entering then
        s.setDom d { s.dom d with wakePending := true }
      else s := by
  have hl : applyLimits d s = s := by rcases h with h | h | h <;> simp [applyLimits, h]
  rw [hl]
  cases hp : (s.dom d).pin
  · rw [applyPin_none hp]; simp
  · rw [applyPin_holdOn hp]
    rcases h with h | h | h <;> simp [h]
  · rw [applyPin_holdLow hp (ho hp)]
    rcases h with h | h | h <;> simp [h]

end LimitsThenPin

/-- Settles O17: the six fields are stored, and in GOVERNING mode the limits and then the pin act by the state. -/
theorem writeDomainTaken : Obligations.WriteDomainTaken := by
  intro s d r c hf hc hok x u
  rw [exec_writeDomain d hf hc, if_neg hok]
  congr 2
  simp only [takeConfig, storeConfig_eq]
  cases hm : s.mode
  case transparent => rfl
  change applyPin d (applyLimits d u) = _
  have hx : u.dom d = x := State.dom_setDom_same s d x
  have ho : (u.dom d).pin = .holdLow → (u.dom d).pinLevel = .off → (u.dom d).discardable = true :=
    hx ▸ configOf?_off_discardable hc
  have hidle : idleFull u x = idleFull s x := rfl
  have hdeep : deepFull u x = deepFull s x := rfl
  have hpx : x.pin = c.pin := rfl
  have hlx : x.pinLevel = c.pinLevel := rfl
  simp only [reduceCtorEq, if_false]
  cases hs : (s.dom d).state
  case active =>
    rw [limits_then_pin_active ho (hx ▸ hs), hx, hidle]
    cases hp : c.pin <;> simp only [hpx, hlx, hp]
  case draining =>
    rw [limits_then_pin_draining ho (hx ▸ hs), hx]
    cases hp : c.pin <;> simp only [hpx, hlx, hp]
  case low =>
    rw [limits_then_pin_low ho (hx ▸ hs), hx, hdeep]
    cases hp : c.pin <;> simp only [hpx, hlx, hp]
  all_goals
    have hsx : x.state = (s.dom d).state := rfl
    rw [limits_then_pin_off_duty ho (by simp [hx, hsx, hs]), hx]
    cases hp : c.pin <;> simp [hsx, hs, hpx, hp]

end Sys2Proof.Proofs
end

section
/-! The domain controller's own events: arrival notices, timers and drains, steering claims, the switch to GOVERNING, and the
events of the power channel. -/

namespace Sys2Proof.Proofs

-- One proof after another: the memory of a compile grows with the proofs that run at once.
set_option Elab.async false

open Sys2Proof.Machine Sys2Proof.Claims

/-! ## Arrival notices and steering claims -/

/-- A notice by the state it finds (R7). -/
theorem actOnNotice_eq (n : Notice) (s : State) :
    actOnNotice n s =
      match (s.dom n.domain).state with
      | .active =>
        if n.monitored = true ∧ (s.dom n.domain).idleTimer ≠ none then
          s.setDom n.domain { s.dom n.domain with idleTimer := idleFull s (s.dom n.domain) }
        else s
      | .draining => if n.monitored = true then active n.domain s else s
      | .entering => if n.wake = true then s.setDom n.domain { s.dom n.domain with wakePending := true } else s
      | .low => if n.wake = true then waking n.domain s else s
      | .exiting => s
      | .fault => s := by
  unfold actOnNotice
  cases h : (s.dom n.domain).state
  case active => exact if_congr (and_congr_right fun _ => Option.isSome_iff_ne_none) (reloadIdle_eq h) rfl
  case draining => rw [enterActive_eq]
  all_goals rfl

theorem exec_arrivalNotice {s : State} {d : DomainId} {n : Notice} (hr : s.inReset = false)
    (hn : firstNotice s d = some n) : exec (.arrivalNotice d) s = .next (actOnNotice n (withoutNotice s d)) := by
  rw [firstNotice] at hn
  simp only [exec_arrivalNotice_def, execArrivalNotice, whileRunning_running hr, hn, withoutNotice]

/-- Settles O43: by the state that the earliest notice finds. -/
theorem arrivalNoticeByState : Obligations.ArrivalNoticeByState := by
  refine fun s d hr => ⟨fun hn => ?_, fun n hn => ?_⟩
  · rw [firstNotice] at hn
    simp only [exec_arrivalNotice_def, execArrivalNotice, whileRunning_running hr, hn]
  · have hd : n.domain = d := by simpa using List.find?_some hn
    subst hd
    rw [exec_arrivalNotice hr hn, actOnNotice_eq]
    rfl

theorem nextClaim_eq (s : State) (a : SteeringAction) (d : DomainId) : s.nextClaim a d = firstClaim s a d := rfl

theorem dropClaim_eq (s : State) (a : SteeringAction) (d : DomainId) : s.dropClaim a d = withoutClaim s a d := rfl

/-- A KEEP claim by the state (R134). -/
theorem takeKeep_eq (d : DomainId) (s : State) :
    takeKeep d s =
      match (s.dom d).state with
      | .active => s.setDom d { s.dom d with idleTimer := idleFull s (s.dom d) }
      | .draining => active d s
      | .entering => s
      | .low => s
      | .exiting => s
      | .fault => s := by
  unfold takeKeep
  cases h : (s.dom d).state
  case active => exact reloadIdle_eq h
  case draining => exact enterActive_eq d s
  all_goals rfl

theorem exec_keepClaim {s : State} {d : DomainId} {c : Claim} (hr : s.inReset = false)
    (hc : firstClaim s .keep d = some c) :
    exec (.keepClaim d) s =
      .next (if s.mode = .governing then takeKeep d (withoutClaim s .keep d) else withoutClaim s .keep d) := by
  simp only [exec_keepClaim_def, execKeepClaim, whileRunning_running hr, nextClaim_eq, hc, dropClaim_eq]

/-- Settles O47: the claim is spent, and acts by the state in GOVERNING mode. -/
theorem keepClaimTaken : Obligations.KeepClaimTaken := by
  refine fun s d hr => ⟨fun hc => ?_, fun c hc => ⟨fun hm => ?_, fun hm => ?_⟩⟩
  · simp only [exec_keepClaim_def, execKeepClaim, whileRunning_running hr, nextClaim_eq, hc]
  · rw [exec_keepClaim hr hc, if_neg (by simp [hm])]
  · rw [exec_keepClaim hr hc, if_pos hm, takeKeep_eq]
    rfl

theorem takeRaiseClaim_eq (c : Claim) (s : State) :
    takeRaiseClaim c s =
      if (s.dom c.domain).state = .fault then offer (ignoredEvent c 4 s.timebase) s
      else if (s.dom c.domain).state = .exiting then s
      else if (s.dom c.domain).pin = .holdLow then offer (ignoredEvent c 3 s.timebase) s
      else raised c.domain s := by
  simp only [takeRaiseClaim, takeUp_eq]
  cases (s.dom c.domain).state
  case fault => rfl
  case exiting => rfl
  all_goals simp only [reduceCtorEq, if_false]; rfl

theorem exec_raiseClaim {s : State} {d : DomainId} {c : Claim} (hr : s.inReset = false)
    (hc : firstClaim s .raise d = some c) :
    exec (.raiseClaim d) s =
      .next (if s.mode = .governing then takeRaiseClaim c (withoutClaim s .raise d) else withoutClaim s .raise d) := by
  simp only [exec_raiseClaim_def, execRaiseClaim, whileRunning_running hr, nextClaim_eq, hc, dropClaim_eq]

/-- Settles O48: the claim is spent, and is taken or ignored by the state and the pin in GOVERNING mode. -/
theorem raiseClaimTaken : Obligations.RaiseClaimTaken := by
  refine fun s d hr => ⟨fun hc => ?_, fun c hc => ?_⟩
  · simp only [exec_raiseClaim_def, execRaiseClaim, whileRunning_running hr, nextClaim_eq, hc]
  · have hd : c.domain = d := (by simpa using List.find?_some hc : c.action = .raise ∧ c.domain = d).2
    subst hd
    refine ⟨fun hm => ?_, fun hm => ?_⟩
    · rw [exec_raiseClaim hr hc, if_neg (by simp [hm])]
    · rw [exec_raiseClaim hr hc, if_pos hm, takeRaiseClaim_eq]
      rfl

/-! ## Timers and drains -/

/-- Settles O44: each row by its condition. -/
theorem timersAndDrains : Obligations.TimersAndDrains := by
  intro s d hr x due
  have hdue : ∀ o : Option Timer, timerDue o s.timebase = true ↔ ∃ t, o = some t ∧ due t := fun o => timerDue_iff o _
  simp only [exec_idleTimerExpiry_def, exec_drainCompletion_def, exec_deepTimerExpiry_def, exec_timebaseAdvance_def,
    execIdleTimerExpiry, execDrainCompletion, execDeepTimerExpiry, execTimebaseAdvance,
    whileRunning_running hr, hdue, Host.Outcome.next.injEq, completeDrain_eq]
  refine ⟨fun h => ?_, fun h => ?_, fun h => ?_, fun h => ?_, fun h => ?_, fun h => ?_, trivial⟩
  · rw [if_pos h, enterDraining_eq]
  · rw [if_neg h]
  · rw [drained, if_pos h]
  · rw [drained, if_neg h]
  · obtain ⟨hs, hl, hx, ht⟩ := h
    rw [if_pos ⟨hs, hl, ht⟩, lowering_off_of_discardable hx]
  · rw [if_neg h]

/-- The switch to GOVERNING taken by one domain, by its state and its pin (R32). -/
theorem takeSwitch_eq (d : DomainId) (s : State) :
    takeSwitch d s =
      if s.mode = .governing ∧ (s.dom d).state = .active then
        if (s.dom d).pin = .holdLow then
          if (s.dom d).inFlight = 0 ∧ s.held (.domain d) = [] then
            lowering d (if (s.dom d).discardable = true then (s.dom d).pinLevel else .retain) s
          else draining d (s.dom d).pinLevel s
        else s.setDom d { s.dom d with idleTimer := idleFull s (s.dom d) }
      else s := by
  unfold takeSwitch
  refine if_ctx_congr .rfl (fun h => if_ctx_congr .rfl (fun hp => ?_) fun _ => reloadIdle_eq h.2) fun _ => rfl
  rw [enterDraining_eq, if_pos hp, completeDrain_eq]
  simp only [drained, draining, State.dom_setDom_same, State.setDom_held, State.setDom_timebase, true_and, lowering, State.setDom_setDom]

/-- Settles O46: taken once for each domain, and by the pin where the domain is still ACTIVE. -/
theorem governingSwitchByPin : Obligations.GoverningSwitchByPin := by
  refine fun s d hr => ⟨fun hd => ?_, fun hd => ?_⟩
  · simp only [exec_governingSwitchTaken_def, execGoverningSwitchTaken, whileRunning_running hr, if_neg hd]
  · intro x u
    simp only [exec_governingSwitchTaken_def, execGoverningSwitchTaken, whileRunning_running hr, if_pos hd,
      Host.Outcome.next.injEq]
    exact takeSwitch_eq d u

/-! ## The power channel -/

/-- Settles O45: the ack timer is due or not. -/
theorem ackTimerExpiryFaults : Obligations.AckTimerExpiryFaults := by
  intro s d hr x
  simp only [exec_ackTimerExpiry_def, execAckTimerExpiry, whileRunning_running hr, Host.Outcome.next.injEq]
  refine ⟨fun t ht hdue => ?_, fun t ht hdue => ?_, fun ht => ?_⟩
  · rw [if_pos ((timerDue_iff _ _).mpr ⟨t, ht, hdue⟩)]
    have hcode : abandonedCode x.state = if x.state = .exiting then 2 else 1 := by cases x.state <;> rfl
    rw [← hcode, abandonCommand]
    cases s.slot d <;> rfl
  · rw [if_neg]
    rw [timerDue_iff]
    rintro ⟨t', ht', hdue'⟩
    cases ht.symm.trans ht'
    exact hdue hdue'
  · have : (s.dom d).ackTimer = none := ht
    simp [this, timerDue]

theorem level_detail (l : Level) : (l.value.setWidth 16 : BitVec 16) = if l = .off then 1 else 0 := by
  cases l <;> rfl

section MassDecline

variable (d : DomainId) (sel selStalled : Entry → Bool) (k : DeclineCode) (s : State)

@[simp] theorem massDecline_domains : (massDecline d sel selStalled k s).domains = s.domains := by
  obtain ⟨_, _, _, _, _, _, _, _, h⟩ := massDecline_frame d sel selStalled k s
  rw [h]

@[simp] theorem massDecline_dom (c : DomainId) : (massDecline d sel selStalled k s).dom c = s.dom c := by
  simp [State.dom]

@[simp] theorem massDecline_mode : (massDecline d sel selStalled k s).mode = s.mode := by
  obtain ⟨_, _, _, _, _, _, _, _, h⟩ := massDecline_frame d sel selStalled k s
  rw [h]

@[simp] theorem massDecline_timebase : (massDecline d sel selStalled k s).timebase = s.timebase := by
  obtain ⟨_, _, _, _, _, _, _, _, h⟩ := massDecline_frame d sel selStalled k s
  rw [h]

theorem massDeclineCount_everyEntry_noEntry :
    massDeclineCount d everyEntry noEntry s = (s.held (.domain d)).length := by
  have hs : selectedStalled d noEntry s = [] := by
    unfold selectedStalled
    split
    · split <;> simp [noEntry]
    · rfl
  have hh : selectedHeld d everyEntry s = s.held (.domain d) := by
    refine List.filter_eq_self.mpr fun i _ => ?_
    cases s.entry i <;> rfl
  simp [massDeclineCount, hs, hh]

end MassDecline

@[simp] theorem offer_domains (e : Event) (s : State) : (offer e s).domains = s.domains := by rw [offer_eq]
@[simp] theorem offer_dom (e : Event) (s : State) (c : DomainId) : (offer e s).dom c = s.dom c := by rw [offer_eq]; rfl
@[simp] theorem offer_mode (e : Event) (s : State) : (offer e s).mode = s.mode := by rw [offer_eq]
@[simp] theorem offer_timebase (e : Event) (s : State) : (offer e s).timebase = s.timebase := by rw [offer_eq]

/-- The deep timer of a domain that has just become LOW, in the mode and at the moment of an earlier state (R15). -/
theorem loadDeep_low {d : DomainId} {s t : State} (hm : t.mode = s.mode) (hn : t.timebase = s.timebase)
    (hs : (t.dom d).state = .low) :
    loadDeep d t =
      t.setDom d
        { t.dom d with deepTimer := if (t.dom d).level = .retain then deepFull s (t.dom d) else none } := by
  have hf : deepFull t (t.dom d) = deepFull s (t.dom d) := by rw [deepFull, deepFull, hm, hn]
  by_cases hl : (t.dom d).level = .retain
  · rw [loadDeep_eq hs hl, if_pos hl, hf]
  · have ho : (t.dom d).level = .off := by cases h : (t.dom d).level <;> simp_all
    rw [if_neg hl]
    simp only [loadDeep, deepLoaded_off _ _ ho]

theorem exec_acknowledge {s : State} {d : DomainId} {c : PowerCommand} (hr : s.inReset = false)
    (hc : s.slot d = .taken c) (o : AckOutcome) :
    exec (.acknowledge o d) s = .next (deliver o c d (s.setSlot d .empty)) := by
  simp only [exec_acknowledge_def, execAcknowledge, whileRunning_running hr, hc]

/-- Settles O50: by the command in the slot and the acknowledge. -/
theorem acknowledgesDelivered : Obligations.AcknowledgesDelivered := by
  intro s d hr x e low level settled
  have hset : ∀ t : State, t.mode = s.mode → t.timebase = s.timebase → (t.dom d).state = .low →
      (t.dom d).level = x.level → loadDeep d t = settled t := by
    intro t hm hn hs hl
    rw [loadDeep_low hm hn hs, hl]
  refine ⟨fun l hc => ?_, fun hc => ⟨?_, ?_⟩⟩
  · intro reported cleared
    refine ⟨?_, ?_⟩
    · rw [exec_acknowledge hr hc]
      have hcleared : (if x.level = .off then loseContents d reported else reported) = cleared := rfl
      have hstep : doneLower d e = if x.wakePending then handRaise d cleared else loadDeep d cleared := by
        rw [← hcleared]
        simp only [doneLower, level_detail]
        rfl
      change Host.Outcome.next (doneLower d e) = _
      rw [hstep, hset cleared]
      · rfl
      all_goals
        rw [← hcleared]
        split <;> simp [loseContents, reported, low, e, x]
    · rw [exec_acknowledge hr hc]
      simp only [deliver, refusedLower, enterActive_eq, level_detail]
      rfl
  · rw [exec_acknowledge hr hc]
    simp only [deliver, doneRaise, enterActive_eq]
    rfl
  · rw [exec_acknowledge hr hc]
    have hheld : (e.held (.domain d)).length = (s.held (.domain d)).length := by rw [State.setSlot_held]
    simp only [deliver, refusedRaise, massDeclineCount_everyEntry_noEntry]
    rw [hset _ (by simp) (by simp) (by simp) (by simp; rfl), hheld]
    rfl

end Sys2Proof.Proofs
end

section
/-! The laws of the device after power-on reset. -/

namespace Sys2Proof.Proofs

-- One proof after another: the memory of a compile grows with the proofs that run at once.
set_option Elab.async false

open Sys2Proof.Machine Sys2Proof.Claims

theorem reset_entry (i : EntryIdx) : State.reset.entry i = none := by
  simp [State.entry, State.reset]

theorem reset_slot (d : DomainId) : State.reset.slot d = .empty := by
  simp [State.slot, State.reset]

theorem reset_init (n : InitiatorId) : State.reset.init n = Initiator.reset := by
  simp [State.init, State.reset]

theorem countEntries_eq_zero {s : State} {p : Entry → Bool} (h : ∀ i e, s.entry i = some e → p e = false) :
    s.countEntries p = 0 := by
  refine List.countP_eq_zero.mpr fun i _ => ?_
  cases he : s.entry i with
  | none => simp
  | some e => simp [h i e he]

theorem reset_countEntries (p : Entry → Bool) : State.reset.countEntries p = 0 :=
  countEntries_eq_zero fun i e he => by simp [reset_entry] at he

theorem poolKept_reset : PoolKept State.reset := by
  have hentry : ∀ i x, State.reset.entryIn i x = false := fun i x => by simp [State.entryIn, reset_entry]
  refine ⟨⟨?_, ?_⟩, ⟨?_, ?_, ?_⟩, ⟨fun i => ?_, ?_, fun i => ?_, ?_⟩, ⟨?_, ?_, fun n => ?_⟩, ?_⟩
  · simp [reset_entry]
  · simp [reset_entry]
  · simp [reset_held]
  · simp [reset_entry]
  · simp [reset_held]
  · simp [hentry, show State.reset.stalled = none from rfl]
  · simp [reset_entry]
  · simp [hentry, show State.reset.stage = none from rfl]
  · simp [reset_entry]
  · simp [State.heldTotal, reset_held, Function.comp_def]
  · rw [reset_countEntries]; rfl
  · rw [reset_countEntries, reset_init]; rfl
  · exact fun i e he => by simp [reset_entry] at he

/-- Settles O52: the tables are empty, and every domain is ACTIVE in TRANSPARENT mode with nothing outstanding. -/
theorem lawsHoldAtReset : Obligations.LawsHoldAtReset := by
  refine ⟨⟨by simp [State.reset], by simp [State.reset]⟩, poolKept_reset, ⟨by simp [reset_entry], fun d => ?_⟩, fun d => ?_,
    ⟨?_, ?_⟩, fun d => ?_, fun d => ?_, fun _ => ⟨fun d => ?_, rfl, rfl⟩, fun d => ⟨?_, ?_⟩, fun d => ?_, fun d => ?_, ?_, ?_⟩
  · rw [reset_countEntries, reset_dom]; rfl
  · rw [reset_dom, reset_slot]; rfl
  · simp [State.waitingAt, reset_slot]
  · simp [State.waitingAt, reset_slot]
  · simp [reset_dom, Domain.reset]
  · simp [reset_dom, Domain.reset]
  · rw [reset_dom]; exact ⟨rfl, rfl⟩
  · simp [idleRuns, State.reset]
  · simp [deepRuns, State.reset]
  · rw [reset_dom]; exact .inl rfl
  · simp [reset_dom, Domain.reset]
  · exact fun i e he => by simp [reset_entry] at he
  · exact fun i e he => by simp [reset_entry] at he

/-- No law reads the queue, the pins, the port or the record of what has been sent. -/
theorem kept_powerOn (b : Bool) (s : State) : Kept (powerOn b s) := lawsHoldAtReset

end Sys2Proof.Proofs
end

section
/-! What a step can do to a domain and its command slot, said once: `Moves` lists the rows of the domain state machine with
their conditions, and `Effect` says of every command which domain moves and what else changes that a law of the domains
reads. The laws of the power domains are then proved of the moves. -/

namespace Sys2Proof.Machine

-- One proof after another: the memory of a compile grows with the proofs that run at once.
set_option Elab.async false

/-- The record of a domain that has entered ACTIVE with its idle timer reloaded (R8, R10). -/
def Domain.activated (m : Mode) (now : Word) (x : Domain) : Domain :=
  { x with
    state := .active, deepTimer := none, ackTimer := none, wakePending := false
    idleTimer := idleLoaded m now { x with state := .active } }

/-- The record of a domain that has entered ENTERING with its LOWER handed (R11, R15). -/
def Domain.lowered (now : Word) (l : Level) (x : Domain) : Domain :=
  { x with
    state := .entering, level := l, idleTimer := none, deepTimer := none, ackTimer := ackLoaded now x
    wakePending := false }

/-- The record of a domain that has entered EXITING with its RAISE handed (R16). -/
def Domain.woken (now : Word) (x : Domain) : Domain :=
  { x with
    state := .exiting, idleTimer := none, deepTimer := none, ackTimer := ackLoaded now x, wakePending := false
    wakeStart := now }

/-- The record of a domain that has reached LOW on an acknowledge, its deep timer not yet loaded (R13, R18). -/
def Domain.reachedLow (valid : Bool) (x : Domain) : Domain :=
  { x with
    state := .low, idleTimer := none, deepTimer := none, ackTimer := none, wakePending := false, contentsValid := valid }

/-- The record with its deep timer loaded (R15). -/
def Domain.deepened (m : Mode) (now : Word) (x : Domain) : Domain :=
  { x with deepTimer := deepLoaded m now x }

/-- The record of a domain that has entered DRAINING (R9). -/
def Domain.drainingTo (l : Level) (x : Domain) : Domain :=
  { x with state := .draining, level := l, idleTimer := none }

/-- The record of a domain whose command has been abandoned (R19). -/
def Domain.faulted (x : Domain) : Domain :=
  { x with state := .fault, idleTimer := none, deepTimer := none, ackTimer := none, wakePending := false }

/-- The records differ at most in the six fields of a WRITE DOMAIN (R24). -/
def Configured (x y : Domain) : Prop :=
  y = { x with
    idleLimit := y.idleLimit, deepLimit := y.deepLimit, ackLimit := y.ackLimit, discardable := y.discardable
    pin := y.pin, pinLevel := y.pinLevel }

/-- What one step may do to a domain with record `x` and slot `c` while the next place in the order of handing is `n`. A move
from `y` in place of `x` is one that a WRITE DOMAIN makes after storing its fields (R24). -/
inductive Moves (m : Mode) (now : Word) (x : Domain) (c : Slot) (n : Nat) : Domain → Slot → Nat → Prop
  /-- Traffic of the domain is counted (R6). -/
  | recounted (k : Nat) : Moves m now x c n { x with inFlight := k } c n
  /-- VALIDATE (R29). -/
  | validated : Moves m now x c n { x with contentsValid := true } c n
  /-- Fields are stored that act on nothing (R24, R31). -/
  | configured {y : Domain} (hy : Configured x y)
      (h : m = .transparent ∨ (x.state ≠ .active ∧ (x.state = .low → x.level = .off))) : Moves m now x c n y c n
  /-- The idle timer is reloaded (R8). -/
  | reloaded {y : Domain} (hy : Configured x y) (h : x.state = .active) :
      Moves m now x c n { y with idleTimer := idleLoaded m now y } c n
  /-- The deep timer is loaded again (R24). -/
  | deepReloaded {y : Domain} (hy : Configured x y) (h : x.state = .low) : Moves m now x c n (y.deepened m now) c n
  /-- Wake-pending is set (R12). -/
  | called {y : Domain} (hy : Configured x y) (h : x.state = .entering) :
      Moves m now x c n { y with wakePending := true } c n
  /-- The step-down begins: by the idle timer, or by management in GOVERNING mode (R9). -/
  | drains {y : Domain} (hy : Configured x y) (l : Level) (h : x.state = .active)
      (hm : m = .governing ∨ x.idleTimer.isSome = true) : Moves m now x c n (y.drainingTo l) c n
  /-- The target of a drain changes (R4, R23, R27). -/
  | retargeted {y : Domain} (hy : Configured x y) (l : Level) (h : x.state = .draining) :
      Moves m now x c n { y with level := l } c n
  /-- A drain is cancelled, or management states a faulted domain to be up (R10, R28). -/
  | activated {y : Domain} (hy : Configured x y) (l : Level)
      (h : x.state = .draining ∨ (x.state = .fault ∧ m = .governing)) :
      Moves m now x c n ({ y with level := l }.activated m now) c n
  /-- LOWER is handed (R11, R15, R23, R27). -/
  | lowered {y : Domain} (hy : Configured x y) (l : Level)
      (h : x.state = .low ∨ ((x.state = .draining ∨ (x.state = .active ∧ m = .governing)) ∧ x.inFlight = 0)) :
      Moves m now x c n (y.lowered now l) (.waiting (.lower l) n) (n + 1)
  /-- RAISE is handed (R7, R16, R22, R26). -/
  | raised {y : Domain} (hy : Configured x y) (h : x.state = .low) :
      Moves m now x c n (y.woken now) (.waiting .raise n) (n + 1)
  /-- Management states a faulted domain to be LOW at RETAIN (R28). -/
  | assumedRetain (h : x.state = .fault) (hm : m = .governing) :
      Moves m now x c n ({ x with state := .low, level := .retain, wakePending := false }.deepened m now) c n
  /-- Management states a faulted domain to be LOW at OFF (R28). -/
  | assumedOff (h : x.state = .fault) (hm : m = .governing) :
      Moves m now x c n { x with state := .low, level := .off, contentsValid := false, wakePending := false } c n
  /-- The memory controller takes the command (R116). -/
  | transferred (k : PowerCommand) (p : Nat) (h : c = .waiting k p) : Moves m now x c n x (.taken k) n
  /-- REFUSED for LOWER and DONE for RAISE (R14, R17). -/
  | acknowledgedUp (k : PowerCommand) (h : c = .taken k) : Moves m now x c n (x.activated m now) .empty n
  /-- DONE for LOWER without wake-pending and REFUSED for RAISE (R13, R18). -/
  | acknowledgedLow (k : PowerCommand) (h : c = .taken k) (valid : Bool) :
      Moves m now x c n ((x.reachedLow valid).deepened m now) .empty n
  /-- DONE for LOWER with wake-pending set: RAISE is handed at once (R13). -/
  | acknowledgedWaking (k : PowerCommand) (h : c = .taken k) (valid : Bool) :
      Moves m now x c n ((x.reachedLow valid).woken now) (.waiting .raise n) (n + 1)
  /-- The ack timer expires (R19). -/
  | abandoned (h : x.ackTimer.isSome = true) : Moves m now x c n x.faulted .empty n

/-- The domains, the slots, the mode and the switches are as they were, and no place of the pool has been taken. -/
structure Beside (s t : State) : Prop where
  domains : t.domains = s.domains
  slots : t.slots = s.slots
  nextHanding : t.nextHanding = s.nextHanding
  mode : t.mode = s.mode
  timebase : t.timebase = s.timebase
  switches : t.switches = s.switches
  holdBudget : t.holdBudget ≤ s.holdBudget

/-- At most in-flight counts have changed of the domains and their slots, and in TRANSPARENT mode no place of the pool has
been taken. -/
structure Recounts (s t : State) : Prop where
  dom : ∀ d, ∃ k, t.dom d = { s.dom d with inFlight := k }
  slots : t.slots = s.slots
  nextHanding : t.nextHanding = s.nextHanding
  mode : t.mode = s.mode
  switches : t.switches = s.switches
  holdBudget : s.mode = .transparent → t.holdBudget ≤ s.holdBudget

/-- One domain has made a move, and the others and their slots are as they were. -/
structure Touches (d : DomainId) (s t : State) : Prop where
  here : Moves s.mode s.timebase (s.dom d) (s.slot d) s.nextHanding (t.dom d) (t.slot d) t.nextHanding
  elsewhere : ∀ c, c ≠ d → t.dom c = s.dom c ∧ t.slot c = s.slot c
  mode : t.mode = s.mode
  switches : t.switches = s.switches
  holdBudget : t.holdBudget ≤ s.holdBudget

/-- What a command can do to the domains, the slots and the mode. -/
inductive Effect (s : State) : State → Prop
  /-- Nothing but in-flight counts. -/
  | recounts {t : State} (h : Recounts s t) : Effect s t
  /-- One domain moves. -/
  | touches {t : State} (d : DomainId) (h : Touches d s t) : Effect s t
  /-- Power-on reset (R77, R154). -/
  | reset (b : Bool) : Effect s (powerOn b s)
  /-- SET MODE to GOVERNING (R164). -/
  | governing {t : State} (h : Beside (switchToGoverning s) t) (hm : s.mode = .transparent) : Effect s t
  /-- SET MODE to TRANSPARENT under its guard (R165). -/
  | transparent {t : State} (h : Beside (switchToTransparent s) t) (hg : s.mayGoTransparent = true) : Effect s t
  /-- A domain takes the switch to GOVERNING (R32). -/
  | switched (d : DomainId) (hd : d ∈ s.switches) :
      Effect s (takeSwitch d { s with switches := s.switches.filter (fun c => c != d) })

end Sys2Proof.Machine
end

section
/-! The laws of one domain and its slot, kept by every move: one outstanding command, and the run conditions of the timers. -/

namespace Sys2Proof.Machine

-- One proof after another: the memory of a compile grows with the proofs that run at once.
set_option Elab.async false

open Sys2Proof.Claims

/-! ## What a configuration leaves -/

theorem Configured.refl (x : Domain) : Configured x x := rfl

theorem configured_stored (c : DomainConfig) (x : Domain) : Configured x (stored c x) := rfl

section Configured

variable {x y : Domain} (h : Configured x y)

include h

theorem Configured.state_eq : y.state = x.state := by rw [h]
theorem Configured.level_eq : y.level = x.level := by rw [h]
theorem Configured.idleTimer_eq : y.idleTimer = x.idleTimer := by rw [h]
theorem Configured.deepTimer_eq : y.deepTimer = x.deepTimer := by rw [h]
theorem Configured.ackTimer_eq : y.ackTimer = x.ackTimer := by rw [h]
theorem Configured.wakePending_eq : y.wakePending = x.wakePending := by rw [h]
theorem Configured.contentsValid_eq : y.contentsValid = x.contentsValid := by rw [h]

end Configured

/-! ## One outstanding command -/

/-- The law of R12 and R114 at one domain: the slot agrees with the record, and wake-pending is set in ENTERING alone. -/
def OneCommand (x : Domain) (c : Slot) : Prop :=
  slotAgrees x c = true ∧ (x.wakePending = true → x.state = .entering)

theorem slotAgrees_settled {x : Domain} (he : x.state ≠ .entering) (hx : x.state ≠ .exiting) (c : Slot) :
    slotAgrees x c = true ↔ c = .empty ∧ x.ackTimer = none := by
  cases h : x.state <;> simp_all [slotAgrees]

/-- Outside ENTERING and EXITING no command is outstanding and wake-pending is clear. -/
theorem oneCommand_settled {x : Domain} {c : Slot} (he : x.state ≠ .entering) (hx : x.state ≠ .exiting) :
    OneCommand x c ↔ c = .empty ∧ x.ackTimer = none ∧ x.wakePending = false := by
  rw [OneCommand, slotAgrees_settled he hx, and_assoc]
  simp [he]

theorem oneCommand_congr {x y : Domain} (hs : y.state = x.state) (hl : y.level = x.level)
    (ha : y.ackTimer = x.ackTimer) (hw : y.wakePending = x.wakePending) (c : Slot) :
    OneCommand y c ↔ OneCommand x c := by
  simp only [OneCommand, slotAgrees, hs, hl, ha, hw]

theorem oneCommand_configured {x y : Domain} (h : Configured x y) (c : Slot) : OneCommand y c ↔ OneCommand x c :=
  oneCommand_congr h.state_eq h.level_eq h.ackTimer_eq h.wakePending_eq c

/-- Every move keeps the law at its domain. -/
theorem Moves.oneCommand {m : Mode} {now : Word} {x y : Domain} {c c' : Slot} {n n' : Nat}
    (h : Moves m now x c n y c' n') (hx : OneCommand x c) : OneCommand y c' := by
  cases h with
  | recounted k => exact hx
  | validated => exact hx
  | configured hy _ => exact (oneCommand_configured hy c).mpr hx
  | reloaded hy _ => exact (oneCommand_configured hy c).mpr hx
  | deepReloaded hy _ => exact (oneCommand_configured hy c).mpr hx
  | called hy hs =>
    obtain ⟨ha, _⟩ := (oneCommand_configured hy c).mpr hx
    exact ⟨ha, fun _ => hy.state_eq.trans hs⟩
  | drains hy l hs _ =>
    obtain ⟨hc, ha, hw⟩ := (oneCommand_settled (by simp [hs]) (by simp [hs])).mp hx
    refine (oneCommand_settled (by simp [Domain.drainingTo]) (by simp [Domain.drainingTo])).mpr ⟨hc, ?_, ?_⟩
    · exact hy.ackTimer_eq.trans ha
    · exact hy.wakePending_eq.trans hw
  | retargeted hy l hs =>
    obtain ⟨hc, ha, hw⟩ := (oneCommand_settled (by simp [hs]) (by simp [hs])).mp hx
    have hs' := hy.state_eq.trans hs
    exact (oneCommand_settled (by simp [hs']) (by simp [hs'])).mpr
      ⟨hc, hy.ackTimer_eq.trans ha, hy.wakePending_eq.trans hw⟩
  | activated hy l hs =>
    obtain ⟨hc, _, _⟩ := (oneCommand_settled (by rcases hs with hs | ⟨hs, _⟩ <;> simp [hs])
      (by rcases hs with hs | ⟨hs, _⟩ <;> simp [hs])).mp hx
    exact (oneCommand_settled (by simp [Domain.activated]) (by simp [Domain.activated])).mpr ⟨hc, rfl, rfl⟩
  | lowered hy l _ => simp [OneCommand, slotAgrees, Domain.lowered, Slot.holds, ackLoaded]
  | raised hy _ => simp [OneCommand, slotAgrees, Domain.woken, Slot.holds, ackLoaded]
  | assumedRetain hs _ =>
    obtain ⟨hc, ha, _⟩ := (oneCommand_settled (by simp [hs]) (by simp [hs])).mp hx
    exact (oneCommand_settled (by simp [Domain.deepened]) (by simp [Domain.deepened])).mpr ⟨hc, ha, rfl⟩
  | assumedOff hs _ =>
    obtain ⟨hc, ha, _⟩ := (oneCommand_settled (by simp [hs]) (by simp [hs])).mp hx
    exact (oneCommand_settled (by simp) (by simp)).mpr ⟨hc, ha, rfl⟩
  | transferred k p hc =>
    subst hc
    exact hx
  | acknowledgedUp k _ => simp [OneCommand, slotAgrees, Domain.activated]
  | acknowledgedLow k _ v => simp [OneCommand, slotAgrees, Domain.deepened, Domain.reachedLow]
  | acknowledgedWaking k _ v => simp [OneCommand, slotAgrees, Domain.woken, Slot.holds, ackLoaded]
  | abandoned _ => simp [OneCommand, slotAgrees, Domain.faulted]

/-- A WAITING command's place in the order of handing. -/
def Slot.place : Slot → Option Nat
  | .waiting _ p => some p
  | _ => none

/-- A move hands no command, so that a WAITING one keeps its place, or hands one at the next place. -/
theorem Moves.place {m : Mode} {now : Word} {x y : Domain} {c c' : Slot} {n n' : Nat}
    (h : Moves m now x c n y c' n') :
    (n' = n ∧ (Slot.place c' = none ∨ Slot.place c' = Slot.place c)) ∨ (n' = n + 1 ∧ Slot.place c' = some n) := by
  cases h with
  | lowered | raised | acknowledgedWaking => exact .inr ⟨rfl, rfl⟩
  | transferred | acknowledgedUp | acknowledgedLow | abandoned => exact .inl ⟨rfl, .inl rfl⟩
  | _ => exact .inl ⟨rfl, .inr rfl⟩

/-! ## The timers -/

/-- The law of R8, R15 and R164 at one domain: a timer runs exactly under its conditions and with the length of its limit,
but that the idle timer need not run while the switch to GOVERNING is outstanding. -/
def TimersRight (m : Mode) (outstanding : Prop) (x : Domain) : Prop :=
  ((∀ t ∈ x.idleTimer, idleRuns m x = true ∧ t.limit = x.idleLimit.toNat * 16) ∧
    ∀ t ∈ x.deepTimer, deepRuns m x = true ∧ t.limit = x.deepLimit.toNat * 1000) ∧
  (idleRuns m x = true → outstanding ∨ x.idleTimer.isSome = true) ∧
  (deepRuns m x = true → x.deepTimer.isSome = true)

theorem idleRuns_eq_false {m : Mode} {x : Domain} (h : m = .transparent ∨ x.state ≠ .active) : idleRuns m x = false := by
  rcases h with h | h <;> simp [idleRuns, h]

theorem deepRuns_eq_false {m : Mode} {x : Domain} (h : m = .transparent ∨ x.state ≠ .low ∨ x.level = .off) :
    deepRuns m x = false := by
  rcases h with h | h | h <;> simp [deepRuns, h]

theorem idleLoaded_right (m : Mode) (now : Word) (x : Domain) :
    (∀ t ∈ idleLoaded m now x, idleRuns m x = true ∧ t.limit = x.idleLimit.toNat * 16) ∧
    (idleRuns m x = true → (idleLoaded m now x).isSome = true) := by
  by_cases h : idleRuns m x = true <;> simp [idleLoaded, h, Config.idleUnit]

theorem deepLoaded_right (m : Mode) (now : Word) (x : Domain) :
    (∀ t ∈ deepLoaded m now x, deepRuns m x = true ∧ t.limit = x.deepLimit.toNat * 1000) ∧
    (deepRuns m x = true → (deepLoaded m now x).isSome = true) := by
  by_cases h : deepRuns m x = true <;> simp [deepLoaded, h, Config.deepUnit]

/-- Where neither timer may run, the law is that neither does. -/
theorem timersRight_stopped {m : Mode} {o : Prop} {x : Domain} (hi : m = .transparent ∨ x.state ≠ .active)
    (hd : m = .transparent ∨ x.state ≠ .low ∨ x.level = .off) :
    TimersRight m o x ↔ x.idleTimer = none ∧ x.deepTimer = none := by
  simp [TimersRight, idleRuns_eq_false hi, deepRuns_eq_false hd, Option.eq_none_iff_forall_ne_some]

/-- In ACTIVE with its idle timer loaded and its deep timer stopped, a domain's timers are right. -/
theorem timersRight_idleLoaded {m : Mode} {o : Prop} {now : Word} {x : Domain} (hs : x.state = .active)
    (hi : x.idleTimer = idleLoaded m now x) (hd : x.deepTimer = none) : TimersRight m o x := by
  obtain ⟨hrun, hload⟩ := idleLoaded_right m now x
  have hdr : deepRuns m x = false := deepRuns_eq_false (by simp [hs])
  exact ⟨⟨hi ▸ hrun, by simp [hd]⟩, fun h => .inr (hi ▸ hload h), by simp [hdr]⟩

/-- Outside ACTIVE with its deep timer loaded and its idle timer stopped, a domain's timers are right. -/
theorem timersRight_deepLoaded {m : Mode} {o : Prop} {now : Word} {x : Domain} (hs : x.state ≠ .active)
    (hi : x.idleTimer = none) (hd : x.deepTimer = deepLoaded m now x) : TimersRight m o x := by
  obtain ⟨hrun, hload⟩ := deepLoaded_right m now x
  have hir : idleRuns m x = false := idleRuns_eq_false (.inr hs)
  exact ⟨⟨by simp [hi], hd ▸ hrun⟩, by simp [hir], fun h => hd ▸ hload h⟩

theorem TimersRight.idleTimer_none {m : Mode} {o : Prop} {x : Domain} (h : TimersRight m o x)
    (hs : m = .transparent ∨ x.state ≠ .active) : x.idleTimer = none := by
  obtain ⟨⟨hi, _⟩, _, _⟩ := h
  refine Option.eq_none_iff_forall_ne_some.mpr fun t ht => ?_
  simpa [idleRuns_eq_false hs] using (hi t ht).1

theorem TimersRight.deepTimer_none {m : Mode} {o : Prop} {x : Domain} (h : TimersRight m o x)
    (hs : m = .transparent ∨ x.state ≠ .low ∨ x.level = .off) : x.deepTimer = none := by
  obtain ⟨⟨_, hd⟩, _, _⟩ := h
  refine Option.eq_none_iff_forall_ne_some.mpr fun t ht => ?_
  simpa [deepRuns_eq_false hs] using (hd t ht).1

/-- Every move keeps the law at its domain. -/
theorem Moves.timersRight {m : Mode} {now : Word} {x y : Domain} {c c' : Slot} {n n' : Nat} {o : Prop}
    (h : Moves m now x c n y c' n') (hx : TimersRight m o x) : TimersRight m o y := by
  cases h with
  | recounted k => exact hx
  | validated => exact hx
  | configured hy hs =>
    have hi : m = .transparent ∨ x.state ≠ .active := hs.imp_right And.left
    have hd : m = .transparent ∨ x.state ≠ .low ∨ x.level = .off := hs.imp_right fun h => imp_iff_not_or.mp h.2
    refine (timersRight_stopped ?_ ?_).mpr ⟨?_, ?_⟩
    · rwa [hy.state_eq]
    · rwa [hy.state_eq, hy.level_eq]
    · rw [hy.idleTimer_eq, hx.idleTimer_none hi]
    · rw [hy.deepTimer_eq, hx.deepTimer_none hd]
  | reloaded hy hs =>
    refine timersRight_idleLoaded (now := now) (hy.state_eq.trans hs) rfl ?_
    exact hy.deepTimer_eq.trans (hx.deepTimer_none (by simp [hs]))
  | deepReloaded hy hs =>
    refine timersRight_deepLoaded (now := now) (by simp [Domain.deepened, hy.state_eq, hs]) ?_ rfl
    exact hy.idleTimer_eq.trans (hx.idleTimer_none (by simp [hs]))
  | called hy hs =>
    refine (timersRight_stopped ?_ ?_).mpr ⟨hy.idleTimer_eq.trans (hx.idleTimer_none (by simp [hs])),
      hy.deepTimer_eq.trans (hx.deepTimer_none (by simp [hs]))⟩
    · simp [hy.state_eq, hs]
    · simp [hy.state_eq, hs]
  | drains hy l hs _ =>
    exact (timersRight_stopped (by simp [Domain.drainingTo]) (by simp [Domain.drainingTo])).mpr
      ⟨rfl, hy.deepTimer_eq.trans (hx.deepTimer_none (by simp [hs]))⟩
  | retargeted hy l hs =>
    refine (timersRight_stopped ?_ ?_).mpr ⟨hy.idleTimer_eq.trans (hx.idleTimer_none (by simp [hs])),
      hy.deepTimer_eq.trans (hx.deepTimer_none (by simp [hs]))⟩
    · simp [hy.state_eq, hs]
    · simp [hy.state_eq, hs]
  | activated hy l _ => exact timersRight_idleLoaded (now := now) rfl rfl rfl
  | lowered hy l _ => exact (timersRight_stopped (by simp [Domain.lowered]) (by simp [Domain.lowered])).mpr ⟨rfl, rfl⟩
  | raised hy _ => exact (timersRight_stopped (by simp [Domain.woken]) (by simp [Domain.woken])).mpr ⟨rfl, rfl⟩
  | assumedRetain hs _ =>
    exact timersRight_deepLoaded (now := now) (by simp [Domain.deepened]) (hx.idleTimer_none (by simp [hs])) rfl
  | assumedOff hs _ =>
    exact (timersRight_stopped (by simp) (by simp)).mpr
      ⟨hx.idleTimer_none (by simp [hs]), hx.deepTimer_none (by simp [hs])⟩
  | transferred => exact hx
  | acknowledgedUp => exact timersRight_idleLoaded (now := now) rfl rfl rfl
  | acknowledgedLow =>
    exact timersRight_deepLoaded (now := now) (by simp [Domain.deepened, Domain.reachedLow]) rfl rfl
  | acknowledgedWaking =>
    exact (timersRight_stopped (by simp [Domain.woken]) (by simp [Domain.woken])).mpr ⟨rfl, rfl⟩
  | abandoned => exact (timersRight_stopped (by simp [Domain.faulted]) (by simp [Domain.faulted])).mpr ⟨rfl, rfl⟩

/-- In TRANSPARENT mode an ACTIVE domain with no command outstanding and no timer running stays ACTIVE, its contents valid. -/
theorem Moves.stays_active {now : Word} {x y : Domain} {c c' : Slot} {n n' : Nat} {o : Prop}
    (h : Moves .transparent now x c n y c' n') (hc : OneCommand x c) (ht : TimersRight .transparent o x)
    (hx : x.state = .active ∧ x.contentsValid = true) : y.state = .active ∧ y.contentsValid = true := by
  obtain ⟨hs, hv⟩ := hx
  obtain ⟨hempty, hack, _⟩ := (oneCommand_settled (by simp [hs]) (by simp [hs])).mp hc
  have hidle := ht.idleTimer_none (.inl rfl)
  cases h with
  | recounted k => exact ⟨hs, hv⟩
  | validated => exact ⟨hs, rfl⟩
  | configured hy _ => exact ⟨hy.state_eq.trans hs, hy.contentsValid_eq.trans hv⟩
  | reloaded hy _ => exact ⟨hy.state_eq.trans hs, hy.contentsValid_eq.trans hv⟩
  | drains hy l _ hm => simp [hidle] at hm
  | deepReloaded | called | retargeted | activated | lowered | raised | assumedRetain | assumedOff => simp_all
  | transferred | acknowledgedUp | acknowledgedLow | acknowledgedWaking => simp_all
  | abandoned ha => simp [hack] at ha

end Sys2Proof.Machine
end

section
/-! The effect of every command: which domain it moves, and what it leaves. -/

namespace Sys2Proof.Machine

-- One proof after another: the memory of a compile grows with the proofs that run at once.
set_option Elab.async false

open Sys2Proof.Claims

/-! ## Operations that leave the domains alone -/

theorem Beside.refl (s : State) : Beside s s := ⟨rfl, rfl, rfl, rfl, rfl, rfl, le_rfl⟩

theorem Beside.trans {s t u : State} (h : Beside s t) (h' : Beside t u) : Beside s u :=
  ⟨h'.domains.trans h.domains, h'.slots.trans h.slots, h'.nextHanding.trans h.nextHanding, h'.mode.trans h.mode,
    h'.timebase.trans h.timebase, h'.switches.trans h.switches, h'.holdBudget.trans h.holdBudget⟩

theorem Beside.dom {s t : State} (h : Beside s t) (d : DomainId) : t.dom d = s.dom d := by
  simp only [State.dom, h.domains]

theorem Beside.slot {s t : State} (h : Beside s t) (d : DomainId) : t.slot d = s.slot d := by
  simp only [State.slot, h.slots]

theorem beside_offer (e : Event) (s : State) : Beside s (offer e s) := by
  rw [offer_eq]
  exact ⟨rfl, rfl, rfl, rfl, rfl, rfl, le_rfl⟩

theorem beside_setEntry (i : EntryIdx) (x : Option Entry) (s : State) : Beside s (s.setEntry i x) :=
  ⟨rfl, rfl, rfl, rfl, rfl, rfl, le_rfl⟩

theorem beside_leaveLists (i : EntryIdx) (s : State) : Beside s (leaveLists i s) :=
  ⟨rfl, rfl, rfl, rfl, rfl, rfl, le_rfl⟩

theorem beside_givePlace (n : InitiatorId) (s : State) : Beside s (givePlace n s) :=
  ⟨rfl, rfl, rfl, rfl, rfl, rfl, Nat.sub_le _ _⟩

theorem beside_leaveStall (s : State) : Beside s (leaveStall s) := ⟨rfl, rfl, rfl, rfl, rfl, rfl, le_rfl⟩

theorem beside_prompt (s : State) : Beside s (prompt s) := by
  rw [prompt_eq]
  exact ⟨rfl, rfl, rfl, rfl, rfl, rfl, le_rfl⟩

theorem beside_decline (i : EntryIdx) (c : DeclineCode) (s : State) : Beside s (decline i c s) := by
  obtain ⟨_, _, h⟩ := decline_frame i c s
  rw [h]
  exact ⟨rfl, rfl, rfl, rfl, rfl, rfl, le_rfl⟩

theorem beside_declineHeld (c : DeclineCode) (s : State) (i : EntryIdx) : Beside s (declineHeld c s i) := by
  unfold declineHeld
  split
  · exact ((beside_leaveLists i s).trans (beside_givePlace _ _)).trans (beside_decline i c _)
  · exact beside_leaveLists i s

theorem beside_declineStalled (c : DeclineCode) (s : State) (i : EntryIdx) : Beside s (declineStalled c s i) := by
  unfold declineStalled
  split
  · exact ((beside_leaveStall s).trans (beside_givePlace _ _)).trans (beside_decline i c _)
  · exact beside_leaveStall s

theorem beside_foldl {α : Type} {f : State → α → State} (hf : ∀ s a, Beside s (f s a)) (l : List α) (s : State) :
    Beside s (l.foldl f s) := by
  induction l generalizing s with
  | nil => exact .refl s
  | cons a l ih => exact (hf s a).trans (ih (f s a))

theorem beside_massDecline (d : DomainId) (sel selStalled : Entry → Bool) (c : DeclineCode) (s : State) :
    Beside s (massDecline d sel selStalled c s) := by
  have key := (beside_foldl (beside_declineHeld c) (selectedHeld d sel s) s).trans
    (beside_foldl (beside_declineStalled c) (selectedStalled d selStalled s) _)
  unfold massDecline
  dsimp only
  split
  · exact key
  · exact key.trans (beside_prompt _)

theorem beside_giveNotice (e : Entry) (wake : Bool) (s : State) : Beside s (giveNotice e wake s) := by
  rw [giveNotice_eq]
  exact ⟨rfl, rfl, rfl, rfl, rfl, rfl, le_rfl⟩

theorem beside_joinList (i : EntryIdx) (e : Entry) (r : HoldReason) (s : State) : Beside s (joinList i e r s) := by
  obtain ⟨_, _, _, h⟩ := joinList_frame i e r s
  rw [h]
  exact ⟨rfl, rfl, rfl, rfl, rfl, rfl, le_rfl⟩

theorem beside_takeSteeringWord (w : WindowId) (r : Request) (s : State) : Beside s (takeSteeringWord w r s) := by
  obtain ⟨_, _, h⟩ := takeSteeringWord_frame w r s
  rw [h]
  exact ⟨rfl, rfl, rfl, rfl, rfl, rfl, le_rfl⟩

theorem beside_reply (status : Status) (bytes : List Byte) (s : State) : Beside s (reply status bytes s) :=
  ⟨rfl, rfl, rfl, rfl, rfl, rfl, le_rfl⟩

theorem beside_answered (bytes : List Byte) (s : State) : Beside s (answered bytes s) :=
  ⟨rfl, rfl, rfl, rfl, rfl, rfl, le_rfl⟩

theorem beside_actionReply (d : DomainId) (n : Nat) (s : State) : Beside s (actionReply d n s) := beside_reply _ _ s

/-! ## Operations that count traffic -/

theorem Beside.recounts {s t : State} (h : Beside s t) : Recounts s t :=
  ⟨fun d => ⟨(s.dom d).inFlight, h.dom d⟩, h.slots, h.nextHanding, h.mode, h.switches, fun _ => h.holdBudget⟩

theorem Recounts.refl (s : State) : Recounts s s := (Beside.refl s).recounts

theorem Recounts.trans {s t u : State} (h : Recounts s t) (h' : Recounts t u) : Recounts s u where
  dom d := by
    obtain ⟨j, hj⟩ := h.dom d
    obtain ⟨k, hk⟩ := h'.dom d
    exact ⟨k, by rw [hk, hj]⟩
  slots := h'.slots.trans h.slots
  nextHanding := h'.nextHanding.trans h.nextHanding
  mode := h'.mode.trans h.mode
  switches := h'.switches.trans h.switches
  holdBudget hm := (h'.holdBudget (h.mode.trans hm)).trans (h.holdBudget hm)

theorem recounts_countIn (i : EntryIdx) (s : State) : Recounts s (countIn i s) := by
  obtain ⟨_, _, h⟩ := countIn_frame i s
  refine ⟨fun d => ?_, ?_, ?_, ?_, ?_, fun _ => ?_⟩
  · rw [countIn_dom]
    split
    · exact ⟨_, rfl⟩
    · exact ⟨(s.dom d).inFlight, rfl⟩
  all_goals rw [h]

theorem recounts_freeEntry (i : EntryIdx) (s : State) : Recounts s (freeEntry i s) := by
  obtain ⟨_, _, h⟩ := freeEntry_frame i s
  refine ⟨fun d => ?_, ?_, ?_, ?_, ?_, fun _ => ?_⟩
  · rw [freeEntry_dom]
    split
    · exact ⟨_, rfl⟩
    · exact ⟨(s.dom d).inFlight, rfl⟩
  all_goals rw [h]

theorem recounts_foldl {α : Type} {f : State → α → State} (hf : ∀ s a, Recounts s (f s a)) (l : List α) (s : State) :
    Recounts s (l.foldl f s) := by
  induction l generalizing s with
  | nil => exact .refl s
  | cons a l ih => exact (hf s a).trans (ih (f s a))

/-- A place of the pool is taken in GOVERNING mode alone (R51). -/
theorem recounts_takePlace (n : InitiatorId) {s : State} (hm : s.mode = .governing) : Recounts s (takePlace n s) :=
  ⟨fun d => ⟨(s.dom d).inFlight, rfl⟩, rfl, rfl, rfl, rfl, fun h => by simp [hm] at h⟩

theorem recounts_passEntry (i : EntryIdx) (e : Entry) (s : State) : Recounts s (passEntry i e s) := by
  have hset : Beside s { s.setEntry i (some { e with state := .passing }) with stage := some i } :=
    ⟨rfl, rfl, rfl, rfl, rfl, rfl, le_rfl⟩
  exact hset.recounts.trans (recounts_countIn i _)

theorem recounts_issueEntry (i : EntryIdx) (e : Entry) (s : State) : Recounts s (issueEntry i e s) :=
  ((beside_setEntry i _ s).recounts.trans (recounts_countIn i _)).trans
    (Beside.recounts ⟨rfl, rfl, rfl, rfl, rfl, rfl, le_rfl⟩)

/-! ## The request decoder and the link -/

theorem recounts_stallEntry (i : EntryIdx) (e : Entry) {s : State} (hm : s.mode = .governing) :
    Recounts s (stallEntry i e s) := by
  have htake := (beside_setEntry i (some { e with state := .stalled }) s).recounts.trans
    (recounts_takePlace e.initiator hm)
  have hstall : ∀ u : State, Beside u { u with stalled := some i, prompts := 0 } := fun u =>
    ⟨rfl, rfl, rfl, rfl, rfl, rfl, le_rfl⟩
  exact (htake.trans (hstall _).recounts).trans (beside_offer _ _).recounts

theorem recounts_holdNew (i : EntryIdx) (e : Entry) (r : HoldReason) {s : State} (hm : s.mode = .governing) :
    Recounts s (holdNew i e r s) := by
  unfold holdNew
  split
  · have hj := beside_joinList i e r s
    exact (hj.recounts.trans (recounts_takePlace e.initiator (hj.mode.trans hm))).trans (beside_giveNotice e _ _).recounts
  · split
    · exact ((beside_setEntry i _ s).trans (beside_decline i _ _)).recounts
    · exact recounts_stallEntry i e hm

theorem recounts_placeNew (i : EntryIdx) (e : Entry) {x : Decision} {s : State}
    (hx : ∀ r, x = .hold r → s.mode = .governing) : Recounts s (placeNew i e x s) := by
  cases x with
  | pass =>
    unfold placeNew
    dsimp only
    split
    · exact (recounts_passEntry i e s).trans (beside_giveNotice e false _).recounts
    · exact recounts_passEntry i e s
  | hold r => exact recounts_holdNew i e r (hx r rfl)
  | decline c => exact ((beside_setEntry i _ s).trans (beside_decline i c _)).recounts

/-- A decode in TRANSPARENT mode holds nothing (R51). -/
theorem decodeRequest_hold {s : State} {r : Request} {x : HoldReason} (h : (decodeRequest s r).decision = .hold x) :
    s.mode = .governing := by
  cases hm : s.mode
  · simp only [decodeRequest, hm, decodeTransparent] at h
    split at h <;> simp [declinedAs] at h
  · rfl

theorem recounts_acceptAt (i : EntryIdx) (r : Request) (s : State) : Recounts s (acceptAt i r s) := by
  have key : ∀ u : State, Beside s u →
      Recounts s (placeNew i (newEntry s r (decodeRequest s r)) (decodeRequest s r).decision u) := fun u hu =>
    hu.recounts.trans (recounts_placeNew i _ fun x hx => hu.mode.trans (decodeRequest_hold hx))
  have ht : Beside s { s with nextOrder := s.nextOrder + 1 } := ⟨rfl, rfl, rfl, rfl, rfl, rfl, le_rfl⟩
  unfold acceptAt
  refine key _ ?_
  cases (decodeRequest s r).word with
  | some w => exact ht.trans (beside_takeSteeringWord w r _)
  | none => exact ht

theorem recounts_reExamine (i : EntryIdx) (e : Entry) (s : State) : Recounts s (reExamine i e s) := by
  have hl := beside_leaveStall s
  unfold reExamine
  split
  · exact ((hl.trans (beside_givePlace _ _)).recounts.trans (recounts_passEntry i e _)).trans
      (beside_giveNotice e false _).recounts
  · split
    · exact ((hl.trans (beside_joinList i e _ _)).trans (beside_giveNotice e _ _)).recounts
    · exact Beside.recounts ⟨rfl, rfl, rfl, rfl, rfl, rfl, le_rfl⟩
  · exact (beside_declineStalled _ s i).recounts

theorem recounts_issuePassing (i : EntryIdx) (e : Entry) (s : State) : Recounts s (issuePassing i e s) :=
  (recounts_issueEntry i e s).trans (Beside.recounts ⟨rfl, rfl, rfl, rfl, rfl, rfl, le_rfl⟩)

theorem recounts_issueHeld (i : EntryIdx) (e : Entry) (s : State) : Recounts s (issueHeld i e s) := by
  have hleave := (beside_leaveLists i s).trans (beside_givePlace e.initiator _)
  have hturn : ∀ u : State, Beside u { u with issueTurn := .pass } := fun u => ⟨rfl, rfl, rfl, rfl, rfl, rfl, le_rfl⟩
  exact (hleave.recounts.trans (recounts_issueEntry i e _)).trans ((hturn _).trans (beside_prompt _)).recounts

theorem recounts_matchResponse (r : MemResponse) (s : State) : Recounts s (matchResponse r s) := by
  unfold matchResponse
  split
  · split
    · exact Beside.recounts ⟨rfl, rfl, rfl, rfl, rfl, rfl, le_rfl⟩
    · split
      · exact recounts_freeEntry _ s
      · exact (beside_offer _ s).recounts
  · exact (beside_offer _ s).recounts

theorem recounts_forwardEntry (i : EntryIdx) (e : Entry) (r : MemResponse) (s : State) :
    Recounts s (forwardEntry i e r s) :=
  (recounts_freeEntry i s).trans (Beside.recounts ⟨rfl, rfl, rfl, rfl, rfl, rfl, le_rfl⟩)

theorem recounts_sendDecline (i : EntryIdx) (e : Entry) (c : DeclineCode) (s : State) :
    Recounts s (sendDecline i e c s) :=
  (recounts_freeEntry i s).trans (Beside.recounts ⟨rfl, rfl, rfl, rfl, rfl, rfl, le_rfl⟩)

/-! ## Port reset -/

theorem recounts_resetEntry (s : State) (i : EntryIdx) : Recounts s (resetEntry s i) := by
  unfold resetEntry
  split
  · split
    · exact (beside_setEntry i _ s).recounts
    · exact .refl s
    · exact recounts_freeEntry i s
  · exact .refl s

theorem beside_emptyPool (s : State) : Beside s (emptyPool s) := ⟨rfl, rfl, rfl, rfl, rfl, rfl, Nat.zero_le _⟩

theorem recounts_dropForward (s : State) : Recounts s (dropForward s) := by
  unfold dropForward
  split
  · split
    · exact (recounts_freeEntry _ s).trans (Beside.recounts ⟨rfl, rfl, rfl, rfl, rfl, rfl, le_rfl⟩)
    · exact Beside.recounts ⟨rfl, rfl, rfl, rfl, rfl, rfl, le_rfl⟩
  · exact .refl s

theorem recounts_resetPort (s : State) : Recounts s (resetPort s) := by
  have hfold := recounts_foldl recounts_resetEntry allEntries s
  have hturns : ∀ u : State,
      Beside u { u with stage := none, issueTurn := .release, returnTurn := .forward, portReset := true } := fun u =>
    ⟨rfl, rfl, rfl, rfl, rfl, rfl, le_rfl⟩
  unfold resetPort
  generalize allEntries.foldl resetEntry s = u at hfold
  exact ((hfold.trans (beside_emptyPool u).recounts).trans (recounts_dropForward _)).trans
    ((hturns _).trans (beside_offer _ _)).recounts

end Sys2Proof.Machine
end

section
/-! The commands that move a domain, and the effect of every command. -/

namespace Sys2Proof.Machine

-- One proof after another: the memory of a compile grows with the proofs that run at once.
set_option Elab.async false

open Sys2Proof.Claims Sys2Proof.Proofs

/-! ## One domain moves -/

theorem Touches.beside {d : DomainId} {s t u : State} (h : Touches d s t) (h' : Beside t u) : Touches d s u where
  here := by rw [h'.dom, h'.slot, h'.nextHanding]; exact h.here
  elsewhere c hc := by rw [h'.dom, h'.slot]; exact h.elsewhere c hc
  mode := h'.mode.trans h.mode
  switches := h'.switches.trans h.switches
  holdBudget := h'.holdBudget.trans h.holdBudget

theorem Beside.touches {d : DomainId} {s t u : State} (h : Beside s t) (h' : Touches d t u) : Touches d s u where
  here := by rw [← h.dom d, ← h.slot d, ← h.nextHanding, ← h.mode, ← h.timebase]; exact h'.here
  elsewhere c hc := by rw [← h.dom, ← h.slot]; exact h'.elsewhere c hc
  mode := h'.mode.trans h.mode
  switches := h'.switches.trans h.switches
  holdBudget := h'.holdBudget.trans h.holdBudget

section Touches

variable {d : DomainId} {s : State}

theorem touches_setDom {y : Domain}
    (h : Moves s.mode s.timebase (s.dom d) (s.slot d) s.nextHanding y (s.slot d) s.nextHanding) :
    Touches d s (s.setDom d y) :=
  ⟨by rw [State.dom_setDom_same]; exact h, fun _ hc => ⟨State.dom_setDom_ne s hc y, rfl⟩, rfl, rfl, le_rfl⟩

/-- A command is handed with the record set. -/
theorem touches_handed {y : Domain} {k : PowerCommand}
    (h : Moves s.mode s.timebase (s.dom d) (s.slot d) s.nextHanding y (.waiting k s.nextHanding) (s.nextHanding + 1)) :
    Touches d s (handed d k (s.setDom d y)) :=
  ⟨by rw [handed_dom, State.dom_setDom_same, handed_slot]; exact h,
    fun _ hc => ⟨State.dom_setDom_ne s hc y, handed_slot_ne hc k _⟩, rfl, rfl, le_rfl⟩

/-- A slot is emptied or taken with the record set. -/
theorem touches_setSlot {y : Domain} {c : Slot}
    (h : Moves s.mode s.timebase (s.dom d) (s.slot d) s.nextHanding y c s.nextHanding) :
    Touches d s ((s.setSlot d c).setDom d y) :=
  ⟨by rw [State.dom_setDom_same, State.setDom_slot, State.slot_setSlot_same]; exact h,
    fun _ hc => ⟨State.dom_setDom_ne _ hc y, State.slot_setSlot_ne s hc c⟩, rfl, rfl, le_rfl⟩

/-- The domain enters ACTIVE from a record that has been set. -/
theorem beside_active (y : Domain) (t : State) :
    Beside (t.setDom d (y.activated t.mode t.timebase)) (enterActive d (t.setDom d y)) := by
  have hdom : (enterActive d (t.setDom d y)).domains = (t.setDom d (y.activated t.mode t.timebase)).domains := by
    rw [enterActive_eq]
    have hidle : idleFull (t.setDom d y) y = idleLoaded t.mode t.timebase { y with state := .active } :=
      (idleLoaded_eq_idleFull t (x := { y with state := .active }) rfl).symm
    simp only [active, State.dom_setDom_same, hidle, State.setDom_setDom]
    rfl
  obtain ⟨_, h⟩ := enterActive_frame d (t.setDom d y)
  exact ⟨hdom, by rw [h]; rfl, by rw [h]; rfl, by rw [h]; rfl, by rw [h]; rfl, by rw [h]; rfl, by rw [h]; rfl⟩

theorem Touches.refl (d : DomainId) (s : State) : Touches d s s :=
  ⟨.recounted (s.dom d).inFlight, fun _ _ => ⟨rfl, rfl⟩, rfl, rfl, le_rfl⟩

/-! ## The moves as the statements name them -/

theorem waking_setDom (y : Domain) : waking d (s.setDom d y) = handed d .raise (s.setDom d (y.woken s.timebase)) := by
  simp only [waking, State.dom_setDom_same, State.setDom_setDom]
  rfl

theorem lowering_setDom (y : Domain) (l : Level) :
    lowering d l (s.setDom d y) = handed d (.lower l) (s.setDom d (y.lowered s.timebase l)) := by
  simp only [lowering, State.dom_setDom_same, State.setDom_setDom]
  rfl

theorem draining_setDom (y : Domain) (l : Level) : draining d l (s.setDom d y) = s.setDom d (y.drainingTo l) := by
  simp only [draining, State.dom_setDom_same, State.setDom_setDom]
  rfl

section Configured

variable {y : Domain} (hy : Configured (s.dom d) y)

include hy

theorem touches_waking (h : (s.dom d).state = .low) : Touches d s (waking d (s.setDom d y)) := by
  rw [waking_setDom]
  exact touches_handed (.raised hy h)

theorem touches_lowering (l : Level)
    (h : (s.dom d).state = .low ∨
      (((s.dom d).state = .draining ∨ ((s.dom d).state = .active ∧ s.mode = .governing)) ∧ (s.dom d).inFlight = 0)) :
    Touches d s (lowering d l (s.setDom d y)) := by
  rw [lowering_setDom]
  exact touches_handed (.lowered hy l h)

theorem touches_draining (l : Level) (h : (s.dom d).state = .active)
    (hm : s.mode = .governing ∨ (s.dom d).idleTimer.isSome = true) : Touches d s (draining d l (s.setDom d y)) := by
  rw [draining_setDom]
  exact touches_setDom (.drains hy l h hm)

theorem touches_active (l : Level)
    (h : (s.dom d).state = .draining ∨ ((s.dom d).state = .fault ∧ s.mode = .governing)) :
    Touches d s (active d (s.setDom d { y with level := l })) := by
  rw [← enterActive_eq]
  exact (touches_setDom (.activated hy l h)).beside (beside_active _ s)

theorem touches_reloaded (h : (s.dom d).state = .active) :
    Touches d s (s.setDom d { y with idleTimer := idleFull s y }) := by
  rw [← idleLoaded_eq_idleFull s (hy.state_eq.trans h)]
  exact touches_setDom (.reloaded hy h)

theorem touches_deepReloaded (h : (s.dom d).state = .low) (hl : (s.dom d).level = .retain) :
    Touches d s (s.setDom d { y with deepTimer := deepFull s y }) := by
  rw [← deepLoaded_eq_deepFull s (hy.state_eq.trans h) (hy.level_eq.trans hl)]
  exact touches_setDom (.deepReloaded hy h)

end Configured

theorem touches_active_here (h : (s.dom d).state = .draining ∨ ((s.dom d).state = .fault ∧ s.mode = .governing)) :
    Touches d s (active d s) := by
  have key : Touches d s (active d (s.setDom d (s.dom d))) := touches_active (.refl _) (s.dom d).level h
  rwa [State.setDom_self] at key

theorem level_eq_off {l : Level} (h : l ≠ .retain) : l = .off := by
  cases l <;> simp_all

theorem level_eq_retain {l : Level} (h : l ≠ .off) : l = .retain := by
  cases l <;> simp_all

/-! ## The domain commands -/

theorem touches_raised (d : DomainId) (s : State) : Touches d s (raised d s) := by
  have hy := Configured.refl (s.dom d)
  unfold raised
  cases h : (s.dom d).state
  case active => exact touches_reloaded hy h
  case draining => exact touches_active_here (.inl h)
  case entering => exact touches_setDom (.called hy h)
  case low => simpa only [State.setDom_self] using touches_waking hy h
  case exiting => exact .refl d s
  case fault => exact .refl d s

theorem touches_actOnNotice (n : Notice) (s : State) : Touches n.domain s (actOnNotice n s) := by
  have hup := touches_raised n.domain s
  rw [actOnNotice_eq]
  cases h : (s.dom n.domain).state <;> simp only [raised, h] at hup ⊢
  case exiting => exact hup
  case fault => exact hup
  all_goals
    split
    · exact hup
    · exact .refl _ s

theorem touches_takeKeep (d : DomainId) (s : State) : Touches d s (takeKeep d s) := by
  have hup := touches_raised d s
  rw [takeKeep_eq]
  cases h : (s.dom d).state <;> simp only [raised, h] at hup ⊢
  case active => exact hup
  case draining => exact hup
  all_goals exact .refl d s

theorem touches_takeRaiseClaim (c : Claim) (s : State) : Touches c.domain s (takeRaiseClaim c s) := by
  rw [takeRaiseClaim_eq]
  split
  · exact (Touches.refl _ s).beside (beside_offer _ s)
  split
  · exact .refl _ s
  split
  · exact (Touches.refl _ s).beside (beside_offer _ s)
  · exact touches_raised _ s

theorem touches_drained (d : DomainId) (s : State) : Touches d s (drained d s) := by
  unfold drained
  split
  · rename_i h
    obtain ⟨hs, hn, _⟩ := h
    simpa only [State.setDom_self] using touches_lowering (Configured.refl (s.dom d)) _ (.inr ⟨.inl hs, hn⟩)
  · exact .refl d s

theorem touches_takeRaise (d : DomainId) (s : State) : Touches d s (takeRaise d s) := by
  rw [takeRaise_eq]
  split
  · exact (Touches.refl d s).beside (beside_answered _ s)
  · exact (touches_raised d s).beside (beside_answered _ _)

theorem touches_takeLower (d : DomainId) (l : Level) {s : State} (hm : s.mode = .governing) :
    Touches d s (takeLower d l s) := by
  have hy := Configured.refl (s.dom d)
  have hstay : ∀ status, Touches d s (actionRefused status s) := fun status =>
    (Touches.refl d s).beside (beside_reply status [] s)
  have hok : ∀ t, Touches d s t → Touches d s (actionReply d 0 t) := fun t h => h.beside (beside_actionReply d 0 t)
  cases h : (s.dom d).state
  case active =>
    rw [takeLower_active h]
    split
    · exact hstay .busy
    split
    · exact hstay .badValue
    split
    · rename_i hz
      exact hok _ (by simpa only [State.setDom_self] using touches_lowering hy l (.inr ⟨.inr ⟨h, hm⟩, hz.1⟩))
    · exact hok _ (by simpa only [State.setDom_self] using touches_draining hy l h (.inl hm))
  case draining =>
    simp only [takeLower, h]
    split
    · exact hstay .busy
    split
    · exact hstay .badValue
    · exact hok _ (by simpa only [h] using touches_setDom (.retargeted hy l h))
  case low =>
    rw [takeLower_low h]
    split
    · split
      · exact hstay .busy
      · exact hok _ (.refl d s)
    split
    · split
      · exact hstay .busy
      · exact hok _ (.refl d s)
    split
    · exact hstay .busy
    split
    · exact hstay .badValue
    · exact hok _ (by simpa only [State.setDom_self] using touches_lowering hy .off (.inl h))
  all_goals
    simp only [takeLower, h]
    exact hstay .busy

theorem touches_takeAssumption (d : DomainId) (a : Assumption) {s : State} (hs : (s.dom d).state = .fault)
    (hm : s.mode = .governing) : Touches d s (takeAssumption d a s) := by
  cases a with
  | active =>
    simp only [takeAssumption, enterActive_eq]
    exact touches_active_here (.inr ⟨hs, hm⟩)
  | lowRetain =>
    simp only [takeAssumption, loadDeep, State.dom_setDom_same, State.setDom_setDom]
    exact touches_setDom (.assumedRetain hs hm)
  | lowOff => exact touches_setDom (.assumedOff hs hm)

theorem touches_takeFlush (d : DomainId) (s : State) : Touches d s (takeFlush d s) := by
  unfold takeFlush
  rw [completeDrain_eq]
  exact ((beside_massDecline d everyEntry everyEntry .flushed s).touches (touches_drained d _)).beside
    (beside_actionReply d _ _)

/-- In TRANSPARENT mode the fields are only stored (R31); in GOVERNING mode the limits and the pin act. -/
theorem touches_takeConfig (d : DomainId) {c : DomainConfig} (s : State)
    (hc : c.pin = .holdLow → c.pinLevel = .off → c.discardable = true) : Touches d s (takeConfig d c s) := by
  have hy := configured_stored c (s.dom d)
  simp only [takeConfig, storeConfig_eq]
  generalize hx : stored c (s.dom d) = y at hy
  have hu : (s.setDom d y).dom d = y := State.dom_setDom_same s d y
  have ho : ((s.setDom d y).dom d).pin = .holdLow → ((s.setDom d y).dom d).pinLevel = .off →
      ((s.setDom d y).dom d).discardable = true := by
    rw [hu, ← hx]; exact hc
  have hset : ∀ z, (s.setDom d y).setDom d z = s.setDom d z := State.setDom_setDom s d y
  split
  · rename_i hm
    cases h : (s.dom d).state
    case active =>
      have hs := hu.symm ▸ hy.state_eq.trans h
      rw [limits_then_pin_active ho hs, hu, hset]
      cases hp : y.pin
      · exact touches_reloaded hy h
      · simpa [idleFull, hp, hset] using touches_reloaded hy h
      · exact touches_draining hy _ h (.inl hm)
    case draining =>
      have hs := hu.symm ▸ hy.state_eq.trans h
      rw [limits_then_pin_draining ho hs, hu, hset]
      cases y.pin
      · exact touches_setDom (.retargeted hy _ h)
      · exact touches_active hy _ (.inl h)
      · rw [hset]; exact touches_setDom (.retargeted hy _ h)
    case low =>
      have hs := hu.symm ▸ hy.state_eq.trans h
      have hoff : y.level ≠ .retain → Touches d s (s.setDom d y) := fun hl =>
        touches_setDom (.configured hy (.inr ⟨by simp [h], fun _ => level_eq_off (hy.level_eq ▸ hl)⟩))
      have hretain : y.level = .retain → Touches d s (s.setDom d { y with deepTimer := deepFull s y }) := fun hl =>
        touches_deepReloaded hy h (hy.level_eq ▸ hl)
      rw [limits_then_pin_low ho hs, hu, hset]
      cases y.pin
      · dsimp only
        split
        · exact hretain ‹_›
        · exact hoff ‹_›
      · exact touches_waking hy h
      · dsimp only
        split
        · exact hoff (by simp_all)
        split
        · exact touches_lowering hy .off (.inl h)
        · exact hretain (level_eq_retain ‹_›)
    all_goals
      have hs := hy.state_eq.trans h
      rw [limits_then_pin_off_duty ho (by simp [hu, hs]), hu, hset]
      split
      · exact touches_setDom (.called hy (by simp_all))
      · exact touches_setDom (.configured hy (.inr (by simp [h])))
  · rename_i hm
    exact touches_setDom (.configured hy (.inl (by cases hv : s.mode <;> simp_all)))

theorem touches_abandonCommand (d : DomainId) {s : State} (h : (s.dom d).ackTimer.isSome = true) :
    Touches d s (abandonCommand d s) :=
  ((touches_setSlot (.abandoned h)).beside (beside_massDecline d everyEntry everyEntry .domainFault _)).beside
    (beside_offer _ _)

theorem touches_commandTransfer {d : DomainId} {s : State} {k : PowerCommand} {p : Nat} (h : s.slot d = .waiting k p) :
    Touches d s (s.setSlot d (.taken k)) := by
  have key : Touches d s ((s.setSlot d (.taken k)).setDom d ((s.setSlot d (.taken k)).dom d)) :=
    touches_setSlot (.transferred k p h)
  rwa [State.setDom_self] at key

theorem Beside.setDom {s t : State} (h : Beside s t) (d : DomainId) (x : Domain) : Beside (s.setDom d x) (t.setDom d x) :=
  ⟨by simp only [State.setDom, h.domains], h.slots, h.nextHanding, h.mode, h.timebase, h.switches, h.holdBudget⟩

/-- The contents are lost where the domain has reached OFF (R5). -/
theorem beside_loseContents_of_dom {d : DomainId} {t : State} {x : Domain} {valid : Bool}
    (h : t.dom d = x.reachedLow valid) : Beside (t.setDom d (x.reachedLow false)) (loseContents d t) := by
  have key := beside_massDecline d guardedEntry guardedEntry .contentLost
    (t.setDom d { t.dom d with contentsValid := false })
  rw [h] at key
  rw [loseContents, h]
  exact key

section Acknowledge

variable {k : PowerCommand} (h : s.slot d = .taken k)

include h

theorem touches_enterActive_acknowledged : Touches d s (enterActive d (s.setSlot d .empty)) := by
  have key := (touches_setSlot (.acknowledgedUp k h)).beside (beside_active (d := d) (s.dom d) (s.setSlot d .empty))
  rwa [← State.setSlot_dom s d .empty d, State.setDom_self] at key

/-- The domain has reached LOW, and its deep timer is loaded. -/
theorem touches_loadDeep_acknowledged {valid : Bool} {t : State}
    (ht : Beside ((s.setSlot d .empty).setDom d ((s.dom d).reachedLow valid)) t) : Touches d s (loadDeep d t) := by
  have hdom : t.dom d = (s.dom d).reachedLow valid := (ht.dom d).trans (State.dom_setDom_same _ d _)
  have key := touches_setSlot (y := ((s.dom d).reachedLow valid).deepened s.mode s.timebase)
    (.acknowledgedLow k h valid)
  refine key.beside ⟨?_, ht.slots, ht.nextHanding, ht.mode, ht.timebase, ht.switches, ht.holdBudget⟩
  simp only [loadDeep, hdom, ht.mode, ht.timebase, State.setDom, ht.domains]
  simp [Domain.deepened]

/-- The domain has reached LOW, and RAISE is handed. -/
theorem touches_handRaise_acknowledged {valid : Bool} {t : State}
    (ht : Beside ((s.setSlot d .empty).setDom d ((s.dom d).reachedLow valid)) t) : Touches d s (handRaise d t) := by
  have hdom : t.dom d = (s.dom d).reachedLow valid := (ht.dom d).trans (State.dom_setDom_same _ d _)
  have key := touches_handed (y := ((s.dom d).reachedLow valid).woken s.timebase) (.acknowledgedWaking k h valid)
  refine key.beside ⟨?_, ?_, ?_, ht.mode, ht.timebase, ht.switches, ht.holdBudget⟩
  · simp only [handRaise_eq, waking, hdom, handed, State.setDom, State.setSlot, ht.domains, ht.timebase, Vector.set_set]
    rfl
  · simp only [handRaise_eq, waking, handed, State.setDom, State.setSlot, ht.slots, ht.nextHanding, Vector.set_set]
  · simp only [handRaise_eq, waking, handed, State.setDom, State.setSlot, ht.nextHanding]

theorem touches_doneLower : Touches d s (doneLower d (s.setSlot d .empty)) := by
  have hlast : ∀ (v : State) (valid : Bool),
      Beside ((s.setSlot d .empty).setDom d ((s.dom d).reachedLow valid)) v →
        Touches d s (if (s.dom d).wakePending then handRaise d v else loadDeep d v) := by
    intro v valid hv
    split
    · exact touches_handRaise_acknowledged h hv
    · exact touches_loadDeep_acknowledged h hv
  obtain ⟨u, hu, hstep⟩ : ∃ u, Beside ((s.setSlot d .empty).setDom d ((s.dom d).reachedLow (s.dom d).contentsValid)) u ∧
      doneLower d (s.setSlot d .empty) =
        if (s.dom d).wakePending then handRaise d (if (s.dom d).level = .off then loseContents d u else u)
        else loadDeep d (if (s.dom d).level = .off then loseContents d u else u) := ⟨_, beside_offer _ _, rfl⟩
  rw [hstep]
  by_cases hl : (s.dom d).level = .off
  · have hlost := (hu.setDom d ((s.dom d).reachedLow false)).trans
      (beside_loseContents_of_dom ((hu.dom d).trans (State.dom_setDom_same _ d _)))
    rw [State.setDom_setDom] at hlost
    simpa only [hl, if_true] using hlast _ false hlost
  · simpa only [hl, if_false] using hlast u _ hu

theorem touches_refusedRaise : Touches d s (refusedRaise d (s.setSlot d .empty)) :=
  touches_loadDeep_acknowledged h (valid := (s.dom d).contentsValid)
    ((beside_massDecline d everyEntry noEntry .wakeRefused _).trans (beside_offer _ _))

theorem touches_deliver (o : AckOutcome) : Touches d s (deliver o k d (s.setSlot d .empty)) := by
  have hup := touches_enterActive_acknowledged h
  cases k <;> cases o
  · exact touches_doneLower h
  · exact hup.beside (beside_offer _ _)
  · exact hup.beside (beside_offer _ _)
  · exact touches_refusedRaise h

end Acknowledge

end Touches

end Sys2Proof.Machine
end

section
/-! The effect of every command, and the two step laws of the power domains. -/

namespace Sys2Proof.Machine

-- One proof after another: the memory of a compile grows with the proofs that run at once.
set_option Elab.async false

open Sys2Proof.Claims Sys2Proof.Proofs

/-! ## The effect of every command -/

theorem Effect.refl (s : State) : Effect s s := .recounts (.refl s)

theorem effect_whileRunning {s t u : State} (he : Effect s u) (h : whileRunning s u = .next t) : Effect s t := by
  obtain rfl := Host.Outcome.next.inj h
  split
  · exact .refl s
  · exact he

theorem effect_inFrame {c : Option Command} {s t u : State} (he : Effect s u) (h : inFrame c s u = .next t) :
    Effect s t := by
  obtain rfl := Host.Outcome.next.inj h
  split
  · exact he
  · exact .refl s

theorem effect_ite {p : Prop} [Decidable p] {s t : State} (h : p → Effect s t) : Effect s (if p then t else s) := by
  split
  · exact h ‹_›
  · exact .refl s

theorem Beside.effect {s t : State} (h : Beside s t) : Effect s t := .recounts h.recounts

theorem effect_next {s t u : State} (he : Effect s u) (h : (.next u : Host.Outcome State Fault Refusal) = .next t) :
    Effect s t :=
  Host.Outcome.next.inj h ▸ he

section Link

variable {s t : State}

theorem effect_acceptance {r : Request} (h : execAcceptance r s = .next t) : Effect s t := by
  refine effect_whileRunning (.recounts ?_) h
  split
  · split
    · exact recounts_acceptAt _ r s
    · exact .refl s
  · exact .refl s

theorem effect_issue (h : execIssue s = .next t) : Effect s t := by
  refine effect_whileRunning (.recounts ?_) h
  split
  · split
    · split
      · exact recounts_issuePassing _ _ s
      · exact recounts_issueHeld _ _ s
    · exact .refl s
  · exact .refl s

theorem effect_downstreamResponse {r : MemResponse} (h : execDownstreamResponse r s = .next t) : Effect s t := by
  refine effect_whileRunning (.recounts ?_) h
  split
  · exact .refl s
  · exact recounts_matchResponse r s

theorem effect_forwarding (h : execForwarding s = .next t) : Effect s t := by
  refine effect_whileRunning (.recounts ?_) h
  split
  · split
    · split
      · exact recounts_forwardEntry _ _ _ s
      · exact .refl s
    · exact .refl s
  · exact .refl s

theorem effect_declineSend (h : execDeclineSend s = .next t) : Effect s t := by
  refine effect_whileRunning (.recounts ?_) h
  split
  · split
    · split
      · split
        · exact recounts_sendDecline _ _ _ s
        · exact .refl s
      · exact .refl s
    · exact .refl s
  · exact .refl s

theorem effect_reExamination (h : execReExamination s = .next t) : Effect s t := by
  refine effect_whileRunning (.recounts ?_) h
  split
  · split
    · split
      · exact recounts_reExamine _ _ s
      · exact .refl s
    · exact .refl s
  · exact .refl s

theorem effect_holdDeadlineExpiry {i : EntryIdx} (h : execHoldDeadlineExpiry i s = .next t) : Effect s t := by
  refine effect_whileRunning ?_ h
  split
  · exact effect_ite fun _ => ((beside_declineHeld .holdTimeout s i).trans (beside_prompt _)).effect
  · exact .refl s

theorem effect_stallDeadlineExpiry (h : execStallDeadlineExpiry s = .next t) : Effect s t := by
  refine effect_whileRunning ?_ h
  split
  · split
    · exact effect_ite fun _ => (beside_declineStalled .holdTimeout s _).effect
    · exact .refl s
  · exact .refl s

end Link

section DomainController

variable {s t : State} {d : DomainId}

theorem effect_arrivalNotice (h : execArrivalNotice d s = .next t) : Effect s t := by
  refine effect_whileRunning ?_ h
  split
  · have hdrop : Beside s (withoutNotice s d) := ⟨rfl, rfl, rfl, rfl, rfl, rfl, le_rfl⟩
    exact .touches _ (hdrop.touches (touches_actOnNotice _ _))
  · exact .refl s

theorem effect_idleTimerExpiry (h : execIdleTimerExpiry d s = .next t) : Effect s t := by
  refine effect_whileRunning (effect_ite fun hdue => ?_) h
  obtain ⟨hs, ht⟩ := hdue
  obtain ⟨u, hu, _⟩ := (timerDue_iff _ _).mp ht
  have key := touches_draining (Configured.refl (s.dom d))
    (if (s.dom d).pin = .holdLow then (s.dom d).pinLevel else .retain) hs (.inr (by simp [hu]))
  rw [State.setDom_self] at key
  exact .touches d key

theorem effect_deepTimerExpiry (h : execDeepTimerExpiry d s = .next t) : Effect s t := by
  refine effect_whileRunning (effect_ite fun hdue => ?_) h
  have key := touches_lowering (Configured.refl (s.dom d)) (if (s.dom d).discardable = true then .off else .retain)
    (.inl hdue.1)
  rw [State.setDom_self] at key
  exact .touches d key

theorem effect_ackTimerExpiry (h : execAckTimerExpiry d s = .next t) : Effect s t := by
  refine effect_whileRunning (effect_ite fun hdue => ?_) h
  obtain ⟨u, hu, _⟩ := (timerDue_iff _ _).mp hdue
  exact .touches d (touches_abandonCommand d (by simp [hu]))

theorem effect_commandTransfer (h : execCommandTransfer s = .next t) : Effect s t := by
  refine effect_whileRunning ?_ h
  split
  · split
    · rename_i d _ _ k p hslot
      exact .touches d ((touches_commandTransfer hslot).beside ⟨rfl, rfl, rfl, rfl, rfl, rfl, le_rfl⟩)
    · exact .refl s
  · exact .refl s

theorem effect_acknowledge {o : AckOutcome} (h : execAcknowledge o d s = .next t) : Effect s t := by
  refine effect_whileRunning ?_ h
  split
  · rename_i k hslot
    exact .touches d (touches_deliver hslot o)
  · exact (beside_offer _ s).effect
  · exact (beside_offer _ s).effect

theorem effect_keepClaim (h : execKeepClaim d s = .next t) : Effect s t := by
  have hdrop : Beside s (s.dropClaim .keep d) := ⟨rfl, rfl, rfl, rfl, rfl, rfl, le_rfl⟩
  refine effect_whileRunning ?_ h
  split
  · split
    · exact .touches d (hdrop.touches (touches_takeKeep d _))
    · exact hdrop.effect
  · exact .refl s

theorem effect_raiseClaim (h : execRaiseClaim d s = .next t) : Effect s t := by
  have hdrop : Beside s (s.dropClaim .raise d) := ⟨rfl, rfl, rfl, rfl, rfl, rfl, le_rfl⟩
  refine effect_whileRunning ?_ h
  split
  · split
    · exact .touches _ (hdrop.touches (touches_takeRaiseClaim _ _))
    · exact hdrop.effect
  · exact .refl s

end DomainController

section Management

variable {s t : State} {b : Byte}

theorem effect_reply (status : Status) (bytes : List Byte) (s : State) : Effect s (reply status bytes s) :=
  (beside_reply status bytes s).effect

theorem effect_setMode (h : execSetMode b s = .next t) : Effect s t := by
  refine effect_inFrame ?_ h
  split
  · rename_i m _
    unfold takeMode
    split
    · exact effect_reply _ _ s
    · rename_i hne
      cases m with
      | governing => exact .governing (beside_reply _ _ _) (by cases hm : s.mode <;> simp_all)
      | transparent =>
        dsimp only
        split
        · exact .transparent (beside_reply _ _ _) ‹_›
        · exact effect_reply _ _ s
  · exact effect_reply _ _ s

theorem effect_writeDomain {r : Vector Byte 8} (h : execWriteDomain b r s = .next t) : Effect s t := by
  refine effect_inFrame ?_ h
  split
  · split
    · rename_i hc
      split
      · exact effect_reply _ _ s
      · exact .touches _ ((touches_takeConfig _ s (configOf?_off_discardable hc)).beside (beside_reply _ _ _))
    · exact effect_reply _ _ s
  · exact effect_reply _ _ s

theorem effect_raiseAction {a x : Byte} (h : execRaiseAction b a x s = .next t) : Effect s t := by
  refine effect_inFrame ?_ h
  split
  · split
    · exact .refl s
    split
    · exact effect_reply _ _ s
    split
    · exact effect_reply _ _ s
    · exact .touches _ (touches_takeRaise _ s)
  · split
    · exact .refl s
    · exact effect_reply _ _ s

theorem effect_lowerAction {l : Byte} (h : execLowerAction b l s = .next t) : Effect s t := by
  refine effect_inFrame ?_ h
  split
  · split
    · split
      · exact effect_reply _ _ s
      · exact .touches _ (touches_takeLower _ _ (mode_eq_governing ‹_›))
    · exact effect_reply _ _ s
  · exact effect_reply _ _ s

theorem effect_clearFault {a : Byte} (h : execClearFault b a s = .next t) : Effect s t := by
  refine effect_inFrame ?_ h
  split
  · split
    · split
      · exact effect_reply _ _ s
      split
      · exact .touches _ ((touches_takeAssumption _ _ ‹_› (mode_eq_governing ‹_›)).beside (beside_actionReply _ _ _))
      · exact effect_reply _ _ s
    · exact effect_reply _ _ s
  · exact effect_reply _ _ s

theorem effect_validate {x : Byte} (h : execValidate b x s = .next t) : Effect s t := by
  refine effect_inFrame ?_ h
  split
  · exact .touches _ ((touches_setDom .validated).beside (beside_actionReply _ _ _))
  · exact effect_reply _ _ s

theorem effect_flush {x : Byte} (h : execFlush b x s = .next t) : Effect s t := by
  refine effect_inFrame ?_ h
  split
  · exact .touches _ (touches_takeFlush _ s)
  · exact effect_reply _ _ s

theorem effect_writeInitiator {q f : Byte} (h : execWriteInitiator b q f s = .next t) : Effect s t := by
  refine effect_inFrame ?_ h
  split
  · split
    · exact effect_reply _ _ s
    · rename_i n _ _
      have hset : Beside s (s.setInit n { s.init n with quota := q.toNat, strict := f.getLsbD 0 }) :=
        ⟨rfl, rfl, rfl, rfl, rfl, rfl, le_rfl⟩
      refine (Beside.trans ?_ (beside_reply _ _ _)).effect
      unfold storeInitiator
      dsimp only
      split
      · exact hset.trans (beside_prompt _)
      · exact hset
  · exact effect_reply _ _ s

theorem effect_recordRemoval (h : execRecordRemoval s = .next t) : Effect s t := by
  refine effect_next (effect_ite fun _ => ?_) h
  split
  · exact Beside.effect ⟨rfl, rfl, rfl, rfl, rfl, rfl, le_rfl⟩
  · exact .refl s

theorem effect_portReset (h : execPortReset s = .next t) : Effect s t := by
  refine effect_next ?_ h
  split
  · exact .refl s
  split
  · exact Beside.effect ⟨rfl, rfl, rfl, rfl, rfl, rfl, le_rfl⟩
  · exact .recounts (recounts_resetPort s)

theorem effect_timebaseAdvance (h : execTimebaseAdvance s = .next t) : Effect s t :=
  effect_whileRunning (u := { s with timebase := s.timebase + 1 })
    (.recounts ⟨fun d => ⟨(s.dom d).inFlight, rfl⟩, rfl, rfl, rfl, rfl, fun _ => le_rfl⟩) h

end Management

/-- Every command has one of the effects. -/
theorem exec_effect {c : Instr} {s t : State} (h : exec c s = .next t) : Effect s t := by
  cases c with
  | acceptance r => exact effect_acceptance h
  | arrivalNotice d => exact effect_arrivalNotice h
  | issue => exact effect_issue h
  | downstreamResponse r => exact effect_downstreamResponse h
  | forwarding => exact effect_forwarding h
  | declineSend => exact effect_declineSend h
  | reExamination => exact effect_reExamination h
  | holdDeadlineExpiry i => exact effect_holdDeadlineExpiry h
  | stallDeadlineExpiry => exact effect_stallDeadlineExpiry h
  | idleTimerExpiry d => exact effect_idleTimerExpiry h
  | drainCompletion d => exact effect_whileRunning (.touches d (completeDrain_eq d s ▸ touches_drained d s)) h
  | deepTimerExpiry d => exact effect_deepTimerExpiry h
  | ackTimerExpiry d => exact effect_ackTimerExpiry h
  | commandTransfer => exact effect_commandTransfer h
  | acknowledge o d => exact effect_acknowledge h
  | keepClaim d => exact effect_keepClaim h
  | raiseClaim d => exact effect_raiseClaim h
  | portReset => exact effect_portReset h
  | portResetRelease =>
    refine effect_next ?_ h
    exact Beside.effect ⟨rfl, rfl, rfl, rfl, rfl, rfl, le_rfl⟩
  | powerOnReset =>
    refine effect_next ?_ h
    split
    · exact .refl s
    · exact .reset true
  | powerOnResetRelease => exact effect_next (effect_ite fun _ => .reset false) h
  | governingSwitchTaken d => exact effect_whileRunning (effect_ite fun hd => .switched d hd) h
  | readStatus =>
    refine effect_inFrame ?_ h
    exact Beside.effect ⟨rfl, rfl, rfl, rfl, rfl, rfl, le_rfl⟩
  | setMode m => exact effect_setMode h
  | readWindow w =>
    refine effect_inFrame ?_ h
    split <;> exact effect_reply _ _ s
  | writeWindow w r =>
    refine effect_inFrame ?_ h
    split
    · split
      · exact Beside.effect ⟨rfl, rfl, rfl, rfl, rfl, rfl, le_rfl⟩
      · exact effect_reply _ _ s
    · exact effect_reply _ _ s
  | readDomain d =>
    refine effect_inFrame ?_ h
    split <;> exact effect_reply _ _ s
  | writeDomain d r => exact effect_writeDomain h
  | raiseAction d a x => exact effect_raiseAction (x := x) h
  | lowerAction d l => exact effect_lowerAction h
  | clearFault d a => exact effect_clearFault h
  | validate d x => exact effect_validate (x := x) h
  | flush d x => exact effect_flush (x := x) h
  | listHeld l =>
    refine effect_inFrame ?_ h
    split <;> exact effect_reply _ _ s
  | readInitiator n =>
    refine effect_inFrame ?_ h
    split <;> exact effect_reply _ _ s
  | writeInitiator n q f => exact effect_writeInitiator h
  | popEvents k =>
    refine effect_inFrame ?_ h
    split
    · exact effect_reply _ _ s
    · exact Beside.effect ⟨rfl, rfl, rfl, rfl, rfl, rfl, le_rfl⟩
  | recordRemoval => exact effect_recordRemoval h
  | setEventControl hi lo f =>
    refine effect_inFrame ?_ h
    split
    · exact Beside.effect ⟨rfl, rfl, rfl, rfl, rfl, rfl, le_rfl⟩
    · exact effect_reply _ _ s
  | badCommand code =>
    refine effect_inFrame ?_ h
    split
    · rw [takeCode_eq]
      exact Beside.effect ⟨rfl, rfl, rfl, rfl, rfl, rfl, le_rfl⟩
    · exact effect_reply _ _ s
  | frameAbort bits =>
    refine effect_next (effect_ite fun _ => ?_) h
    exact Beside.effect ⟨rfl, rfl, rfl, rfl, rfl, rfl, le_rfl⟩
  | frameEnd =>
    refine effect_next (effect_ite fun _ => ?_) h
    exact Beside.effect ⟨rfl, rfl, rfl, rfl, rfl, rfl, le_rfl⟩
  | chipSelectFalling =>
    refine effect_next (effect_ite fun _ => ?_) h
    exact Beside.effect ⟨rfl, rfl, rfl, rfl, rfl, rfl, le_rfl⟩
  | ignoringEnd =>
    refine effect_next (effect_ite fun _ => ?_) h
    exact Beside.effect ⟨rfl, rfl, rfl, rfl, rfl, rfl, le_rfl⟩
  | timebaseAdvance => exact effect_timebaseAdvance h

end Sys2Proof.Machine
end

section
/-! The two step laws of the power domains. -/

namespace Sys2Proof.Proofs

-- One proof after another: the memory of a compile grows with the proofs that run at once.
set_option Elab.async false

open Sys2Proof.Machine Sys2Proof.Claims

/-! ## One step -/

/-- A step runs one command with the queue's rest, or idles. -/
theorem step_effect {s t : State} (h : step s = .next t) : t = s ∨ ∃ rest, Effect { s with pending := rest } t := by
  unfold step at h
  split at h
  · exact .inl (Host.Outcome.next.inj h).symm
  · exact .inr ⟨_, exec_effect h⟩

theorem touches_takeSwitch (d : DomainId) (s : State) : Touches d s (takeSwitch d s) := by
  have hy := Configured.refl (s.dom d)
  rw [takeSwitch_eq]
  split
  · rename_i h
    obtain ⟨hm, hs⟩ := h
    split
    · split
      · rename_i hz
        simpa only [State.setDom_self] using
          touches_lowering hy (if (s.dom d).discardable = true then (s.dom d).pinLevel else .retain)
            (.inr ⟨.inr ⟨hs, hm⟩, hz.1⟩)
      · simpa only [State.setDom_self] using touches_draining hy (s.dom d).pinLevel hs (.inl hm)
    · exact touches_reloaded hy hs
  · exact .refl d s

/-! ## One outstanding command -/

theorem waitingAt_eq_place (s : State) (d : DomainId) : s.waitingAt d = Slot.place (s.slot d) := by
  unfold State.waitingAt
  cases s.slot d <;> rfl

theorem oneCommand_iff (s : State) :
    SlotsKept s ∧ WakePendingKept s ↔ ∀ d, OneCommand (s.dom d) (s.slot d) :=
  forall_and.symm

theorem handingKept_of_slots {s t : State} (hslots : t.slots = s.slots) (hn : t.nextHanding = s.nextHanding)
    (h : HandingKept s) : HandingKept t := by
  have hw : ∀ d, t.waitingAt d = s.waitingAt d := fun d => by simp only [State.waitingAt, State.slot, hslots]
  simpa only [HandingKept, hw, hn] using h

/-- A command is handed at a place that no other has. -/
theorem handingKept_of_touches {d : DomainId} {s t : State} (h : Touches d s t) (hs : HandingKept s) :
    HandingKept t := by
  obtain ⟨hlt, hne⟩ := hs
  have hplace := h.here.place
  rw [← waitingAt_eq_place, ← waitingAt_eq_place] at hplace
  have hle : s.nextHanding ≤ t.nextHanding := by
    rcases hplace with ⟨hn, _⟩ | ⟨hn, _⟩ <;> omega
  have hold : ∀ c, ∀ n ∈ t.waitingAt c,
      n ∈ s.waitingAt c ∨ (c = d ∧ n = s.nextHanding ∧ t.nextHanding = s.nextHanding + 1) := by
    intro c n hn
    by_cases hc : c = d
    · subst hc
      rcases hplace with ⟨_, hw | hw⟩ | ⟨ht, hw⟩
      · simp [hw] at hn
      · exact .inl (hw ▸ hn)
      · rw [hw] at hn
        exact .inr ⟨rfl, (Option.mem_some_iff.mp hn).symm, ht⟩
    · rw [waitingAt_eq_place, (h.elsewhere c hc).2, ← waitingAt_eq_place] at hn
      exact .inl hn
  refine ⟨fun c n hn => ?_, fun b c hbc m hm n hn => ?_⟩
  · rcases hold c n hn with hn | ⟨_, rfl, ht⟩
    · exact (hlt c n hn).trans_le hle
    · omega
  · rcases hold b m hm with hm | ⟨rfl, rfl, _⟩ <;> rcases hold c n hn with hn | ⟨rfl, rfl, _⟩
    · exact hne b c hbc m hm n hn
    · exact (hlt b m hm).ne
    · exact (hlt c n hn).ne'
    · exact absurd rfl hbc

/-- The law of R12, R114 and R116. -/
abbrev CommandLaw (s : State) : Prop :=
  SlotsKept s ∧ HandingKept s ∧ WakePendingKept s

theorem commandLaw_iff (s : State) : CommandLaw s ↔ (∀ d, OneCommand (s.dom d) (s.slot d)) ∧ HandingKept s := by
  rw [← oneCommand_iff]
  exact ⟨fun ⟨hs, hh, hw⟩ => ⟨⟨hs, hw⟩, hh⟩, fun ⟨⟨hs, hw⟩, hh⟩ => ⟨hs, hh, hw⟩⟩

theorem commandLaw_of_touches {d : DomainId} {s t : State} (h : Touches d s t) (hs : CommandLaw s) : CommandLaw t := by
  rw [commandLaw_iff] at hs ⊢
  obtain ⟨hone, hhand⟩ := hs
  refine ⟨fun c => ?_, handingKept_of_touches h hhand⟩
  by_cases hc : c = d
  · subst hc
    exact h.here.oneCommand (hone c)
  · obtain ⟨hdom, hslot⟩ := h.elsewhere c hc
    rw [hdom, hslot]
    exact hone c

/-- The law reads of a record its state, its level, its ack timer and wake-pending. -/
theorem commandLaw_of_records {s t : State}
    (hdom : ∀ d c, OneCommand (s.dom d) c → OneCommand (t.dom d) c) (hslots : t.slots = s.slots)
    (hn : t.nextHanding = s.nextHanding) (hs : CommandLaw s) : CommandLaw t := by
  rw [commandLaw_iff] at hs ⊢
  obtain ⟨hone, hhand⟩ := hs
  have hslot : ∀ d, t.slot d = s.slot d := fun d => by simp only [State.slot, hslots]
  exact ⟨fun d => hslot d ▸ hdom d _ (hone d), handingKept_of_slots hslots hn hhand⟩

theorem switchToTransparent_dom (s : State) (d : DomainId) :
    (switchToTransparent s).dom d = { s.dom d with idleTimer := none } := by
  simp [switchToTransparent, State.dom]

theorem commandLaw_of_effect {s t : State} (h : Effect s t) (hs : CommandLaw s) : CommandLaw t := by
  cases h with
  | recounts h =>
    refine commandLaw_of_records (fun d c hc => ?_) h.slots h.nextHanding hs
    obtain ⟨k, hk⟩ := h.dom d
    rw [hk]
    exact hc
  | touches d h => exact commandLaw_of_touches h hs
  | reset b =>
    obtain ⟨_, _, _, hslots, hhand, hwake, _⟩ := kept_powerOn b s
    exact ⟨hslots, hhand, hwake⟩
  | governing h _ =>
    refine commandLaw_of_records (fun d c hc => ?_) h.slots h.nextHanding hs
    rw [h.dom]
    exact hc
  | transparent h _ =>
    refine commandLaw_of_records (s := s) (fun d c hc => ?_) h.slots h.nextHanding hs
    rw [h.dom, switchToTransparent_dom]
    exact hc
  | switched d _ => exact commandLaw_of_touches (touches_takeSwitch d _) hs

/-- Settles O54: every effect keeps the law at every domain, and the order of handing. -/
theorem stepKeepsOneCommandLaw : Obligations.StepKeepsOneCommandLaw := by
  intro s t hs hstep
  rcases step_effect hstep with rfl | ⟨rest, he⟩
  · exact hs
  · exact commandLaw_of_effect he hs

/-! ## The timers and the guard of TRANSPARENT -/

theorem timersRight_iff (s : State) :
    TimersKept s ∧ TimersRunKept s ↔ ∀ d, TimersRight s.mode (d ∈ s.switches) (s.dom d) :=
  forall_and.symm

/-- A domain has taken the switch, and its idle timer runs where it may (R32, R164). -/
theorem takeSwitch_timersRight (d : DomainId) {s : State} {o : Prop} (h : TimersRight s.mode o (s.dom d)) (o' : Prop) :
    TimersRight s.mode o' ((takeSwitch d s).dom d) := by
  have hkeep := (touches_takeSwitch d s).here.timersRight h
  obtain ⟨hrun, hidle, hdeep⟩ := hkeep
  refine ⟨hrun, fun hr => .inr ?_, hdeep⟩
  have hactive : ((takeSwitch d s).dom d).state = .active ∧ s.mode = .governing := by
    simp only [idleRuns, Bool.and_eq_true, beq_iff_eq] at hr
    exact ⟨hr.1.1.2, hr.1.1.1⟩
  by_cases hc : s.mode = .governing ∧ (s.dom d).state = .active
  · by_cases hp : (s.dom d).pin = .holdLow
    · rw [takeSwitch_eq, if_pos hc, if_pos hp] at hactive
      split at hactive
      · simp [lowering] at hactive
      · simp [draining] at hactive
    · rw [takeSwitch_eq, if_pos hc, if_neg hp, State.dom_setDom_same] at hr ⊢
      rw [← idleLoaded_eq_idleFull s hc.2]
      exact (idleLoaded_right s.mode s.timebase (s.dom d)).2 hr
  · rw [takeSwitch_eq, if_neg hc] at hactive
    exact absurd hactive.symm hc

/-- The laws of R8, R15 and R165. -/
theorem timers_of_effect {s t : State} (h : Effect s t) (hone : ∀ d, OneCommand (s.dom d) (s.slot d))
    (htimers : ∀ d, TimersRight s.mode (d ∈ s.switches) (s.dom d)) (hguard : TransparentKept s) :
    (∀ d, TimersRight t.mode (d ∈ t.switches) (t.dom d)) ∧ TransparentKept t := by
  cases h with
  | recounts h =>
    refine ⟨fun d => ?_, fun hm => ?_⟩
    · obtain ⟨k, hk⟩ := h.dom d
      rw [hk, h.mode, h.switches]
      exact htimers d
    · obtain ⟨hactive, hbudget, hswitches⟩ := hguard (h.mode ▸ hm)
      refine ⟨fun d => ?_, Nat.eq_zero_of_le_zero (hbudget ▸ h.holdBudget (h.mode ▸ hm)), h.switches.trans hswitches⟩
      obtain ⟨k, hk⟩ := h.dom d
      rw [hk]
      exact hactive d
  | touches d h =>
    refine ⟨fun c => ?_, fun hm => ?_⟩
    · rw [h.mode, h.switches]
      by_cases hc : c = d
      · subst hc
        exact h.here.timersRight (htimers c)
      · rw [(h.elsewhere c hc).1]
        exact htimers c
    · have hms : s.mode = .transparent := h.mode ▸ hm
      obtain ⟨hactive, hbudget, hswitches⟩ := hguard hms
      refine ⟨fun c => ?_, Nat.eq_zero_of_le_zero (hbudget ▸ h.holdBudget), h.switches.trans hswitches⟩
      by_cases hc : c = d
      · subst hc
        exact (hms ▸ h.here).stays_active (hone c) (hms ▸ htimers c) (hactive c)
      · rw [(h.elsewhere c hc).1]
        exact hactive c
  | reset b =>
    obtain ⟨_, _, _, _, _, _, htimers, hguard, hrun, _⟩ := kept_powerOn b s
    exact ⟨(timersRight_iff _).mp ⟨htimers, hrun⟩, hguard⟩
  | governing h hm =>
    have hmode : t.mode = .governing := h.mode
    have hswitches : t.switches = allDomains := h.switches
    refine ⟨fun d => ?_, fun ht => by simp [hmode] at ht⟩
    have hdom : t.dom d = s.dom d := h.dom d
    have hactive := ((hguard hm).1 d).1
    rw [hmode, hswitches, hdom]
    refine ⟨⟨?_, ?_⟩, fun _ => .inl (List.mem_finRange d), ?_⟩
    · simp [(htimers d).idleTimer_none (.inl hm)]
    · simp [(htimers d).deepTimer_none (.inl hm)]
    · simp [deepRuns, hactive]
  | transparent h hg =>
    have hmode : t.mode = .transparent := h.mode
    obtain ⟨hactive, hbudget⟩ : (∀ d, (s.dom d).state = .active ∧ (s.dom d).contentsValid = true) ∧ s.holdBudget = 0 := by
      simpa [State.mayGoTransparent] using hg
    have hdom : ∀ d, t.dom d = { s.dom d with idleTimer := none } := fun d => (h.dom d).trans (switchToTransparent_dom s d)
    refine ⟨fun d => ?_, fun _ => ⟨fun d => ?_, Nat.eq_zero_of_le_zero (hbudget ▸ h.holdBudget), h.switches⟩⟩
    · rw [hmode, hdom]
      refine (timersRight_stopped (.inl rfl) (.inl rfl)).mpr ⟨rfl, ?_⟩
      exact (htimers d).deepTimer_none (by simp [(hactive d).1])
    · rw [hdom]
      exact hactive d
  | switched d hd =>
    generalize hu : { s with switches := s.switches.filter (fun c => c != d) } = u
    have hmode : u.mode = s.mode := by rw [← hu]
    have hdom : ∀ c, u.dom c = s.dom c := fun c => by rw [← hu]; rfl
    have hswitches : u.switches = s.switches.filter (fun c => c != d) := by rw [← hu]
    have ht := touches_takeSwitch d u
    refine ⟨fun c => ?_, fun hm => ?_⟩
    · rw [ht.mode, ht.switches]
      by_cases hc : c = d
      · subst hc
        exact takeSwitch_timersRight c (hmode ▸ hdom c ▸ htimers c) _
      · rw [(ht.elsewhere c hc).1, hmode, hdom, hswitches]
        simpa [hc] using htimers c
    · have hnone := (hguard (hmode ▸ ht.mode ▸ hm)).2.2
      simp [hnone] at hd

/-- Settles O56: every effect keeps each domain's timers right, and in TRANSPARENT mode nothing leaves ACTIVE. -/
theorem stepKeepsTimersAndTransparency : Obligations.StepKeepsTimersAndTransparency := by
  intro s t hs hstep
  obtain ⟨_, _, _, hslots, _, hwake, htimers, hguard, hrun, _⟩ := hs
  rcases step_effect hstep with rfl | ⟨rest, he⟩
  · exact ⟨htimers, hguard, hrun⟩
  · obtain ⟨hright, hguard'⟩ := timers_of_effect he ((oneCommand_iff s).mp ⟨hslots, hwake⟩)
      ((timersRight_iff s).mp ⟨htimers, hrun⟩) hguard
    obtain ⟨htimers', hrun'⟩ := (timersRight_iff t).mpr hright
    exact ⟨htimers', hguard', hrun'⟩

end Sys2Proof.Proofs
end

section
/-! An accepted request that passes or is declined (R56, R59, R60), and what a decline leaves. -/

namespace Sys2Proof.Proofs

-- One proof after another: the memory of a compile grows with the proofs that run at once.
set_option Elab.async false

open Sys2Proof.Machine Sys2Proof.Claims

/-! ## A decline -/

theorem declineDetail_eq (x : Direction) (n : Nat) :
    declineDetail x n = BitVec.ofNat 16 ((if x = .write then 32768 else 0) + n % 128) := by
  apply BitVec.eq_of_toNat_eq
  simp only [declineDetail]
  rw [BitVec.toNat_append, ← Nat.shiftLeft_add_eq_or_of_lt (BitVec.isLt _), BitVec.toNat_ofNat, BitVec.toNat_ofNat,
    Nat.shiftLeft_eq]
  have hn : n % 128 < 128 := Nat.mod_lt n (by decide)
  cases x
  · rw [show (Direction.read.bit ++ (0 : BitVec 8)).toNat = 0 from rfl, if_neg (by decide)]
    omega
  · rw [show (Direction.write.bit ++ (0 : BitVec 8)).toNat = 256 from rfl, if_pos rfl]
    omega

theorem declineRecord_eq (s : State) (e : Entry) (c : DeclineCode) : declineRecord s e c = declineEvent e c s.timebase := by
  simp only [declineRecord, declineEvent, declineDetail_eq]
  rfl

/-- A decline of a live entry (R67, R144). -/
theorem decline_eq {i : EntryIdx} {e : Entry} {s : State} (c : DeclineCode) (h : s.entry i = some e) :
    decline i c s = declinedAt i e c s := by
  simp only [decline, h, declineRecord_eq, declinedAt, declineReported]
  split
  · rw [offer_eq, offer_eq]
    rfl
  · rfl

theorem declinedAt_setEntry (i : EntryIdx) (x : Option Entry) (e : Entry) (c : DeclineCode) (s : State) :
    declinedAt i e c (s.setEntry i x) = declinedAt i e c s := by
  have hr : declineReported e c (s.setEntry i x) = declineReported e c s := by
    simp only [declineReported, offer_eq]
    rfl
  simp only [declinedAt, hr, State.setEntry_setEntry]

/-! ## Acceptance -/

theorem lowestFree_eq {s : State} {i : EntryIdx} (h : s.entry i = none) (hlow : ∀ j < i, s.entry j ≠ none) :
    s.lowestFree = some i := by
  refine List.find?_eq_some_iff_getElem.mpr ⟨by simp [h], i.val, by simp, by simp, fun j hj => ?_⟩
  simpa [Option.isSome_iff_ne_none] using hlow ⟨j, hj.trans i.isLt⟩ hj

theorem exec_acceptance_of_accepting {s : State} {r : Request} {i : EntryIdx} (hr : s.inReset = false)
    (hp : s.portReset = false) (hs : s.stage = none) (hst : s.stalled = none) (hi : s.lowestFree = some i) :
    exec (.acceptance r) s = .next (acceptAt i r s) := by
  have ha : s.accepting = true := by simp [State.accepting, hr, hp, hs, hst, hi]
  simp only [exec_acceptance_def, execAcceptance, whileRunning_running hr, ha, if_true, hi]

/-- A fresh entry that is counted where it has a domain (R50, R70). -/
theorem passEntry_eq {i : EntryIdx} {e : Entry} (s : State) (hs : e.state = .passing) (hc : e.counted = false) :
    passEntry i e s =
      countedIn e { s.setEntry i (some { e with counted := e.domain?.isSome }) with stage := some i } := by
  have hpass : { e with state := .passing } = e := by rw [← hs]
  unfold passEntry
  rw [hpass]
  generalize hu : { s.setEntry i (some e) with stage := some i } = u
  have hentry : u.entry i = some e := by rw [← hu]; exact State.entry_setEntry_same s i _
  unfold countIn countedIn
  simp only [hentry, hc, Bool.false_eq_true, if_false]
  cases hd : e.domain? with
  | none =>
    have hcount : { e with counted := false } = e := by rw [← hc]
    simp only [Option.isSome_none, hcount, hu]
  | some d =>
    simp only [Option.isSome_some, ← hu]
    simp only [State.setEntry, State.setDom, State.dom, Vector.set_set]

/-- Settles O31: acceptance places the decoded entry at the lowest free index, by the decision. -/
theorem acceptancePassesOrDeclines : Obligations.AcceptancePassesOrDeclines := by
  intro s r i hr hp hs hst hi hlow x e ordered u
  have hexec : exec (.acceptance r) s = .next (placeNew i e x.decision u) :=
    exec_acceptance_of_accepting hr hp hs hst (lowestFree_eq hi hlow)
  have hmode : u.mode = s.mode := by
    change (match x.word with | some w => takeSteeringWord w r ordered | none => ordered).mode = s.mode
    cases x.word with
    | none => rfl
    | some w => exact (beside_takeSteeringWord w r ordered).mode
  refine ⟨⟨rfl, rfl, rfl, rfl, rfl, rfl, rfl, rfl, ?_⟩, fun hx => ?_, fun c hx => ?_⟩
  · change requestData r = _
    unfold requestData
    cases r.direction <;> rfl
  · intro v
    have hv : passEntry i e u = v := passEntry_eq u rfl rfl
    rw [hexec, hx]
    simp only [placeNew, hv, hmode]
    rfl
  · rw [hexec, hx]
    exact congrArg _ ((decline_eq c (State.entry_setEntry_same u i _)).trans (declinedAt_setEntry i _ e c u))

end Sys2Proof.Proofs
end

section
/-! Port reset (R73): what it does to one entry, to all of them, and to the response that waits. -/

namespace Sys2Proof.Machine

-- One proof after another: the memory of a compile grows with the proofs that run at once.
set_option Elab.async false

open Sys2Proof.Claims

/-! ## Counting entries -/

theorem State.countIn_eq (s : State) (x : EntryState) : s.countIn x = s.countEntries (fun e => e.state == x) := by
  rw [State.countIn, State.countEntries, ← List.countP_eq_length_filter]
  congr 1
  funext i
  unfold State.entryIn
  cases s.entry i <;> rfl

theorem countP_add_of_disjoint {α : Type} {p q : α → Bool} (l : List α) (h : ∀ a ∈ l, p a = true → q a = false) :
    l.countP p + l.countP q = l.countP (fun a => p a || q a) := by
  induction l with
  | nil => rfl
  | cons a l ih =>
    have hl := ih fun b hb => h b (List.mem_cons_of_mem a hb)
    have ha := h a List.mem_cons_self
    cases hp : p a <;> cases hq : q a <;> simp_all <;> omega

theorem State.countEntries_add_of_disjoint (s : State) {p q : Entry → Bool} (h : ∀ e, p e = true → q e = false) :
    s.countEntries p + s.countEntries q = s.countEntries (fun e => p e || q e) := by
  rw [State.countEntries, State.countEntries, countP_add_of_disjoint]
  · congr 1
    funext i
    cases s.entry i <;> rfl
  · intro i _
    cases s.entry i with
    | none => simp
    | some e => simpa using h e

/-- The entry has reached memory: a port reset leaves it an orphan (R73). -/
def Entry.reached (e : Entry) : Bool :=
  e.state == .issued || e.state == .orphaned

theorem State.discarded_eq (s : State) : s.discarded = s.countEntries (fun e => !e.reached) := by
  have hne : ∀ {x y : EntryState}, x ≠ y → ∀ e : Entry, (e.state == x) = true → (e.state == y) = false := by
    intro x y hxy e hx
    simp_all
  rw [State.discarded, State.countIn_eq, State.countIn_eq, State.countIn_eq, State.countIn_eq,
    s.countEntries_add_of_disjoint (hne (by decide)),
    s.countEntries_add_of_disjoint (by intro e h; cases he : e.state <;> simp_all),
    s.countEntries_add_of_disjoint (by intro e h; cases he : e.state <;> simp_all)]
  congr 1
  funext e
  cases he : e.state <;> simp [Entry.reached, he]

/-! ## One entry -/

/-- An entry after a port reset (R73). -/
def Entry.afterReset (e : Entry) : Option Entry :=
  if e.reached then some { e with state := .orphaned } else none

/-- The entry is discarded and was counted in the domain. -/
def Entry.discardedIn (d : DomainId) (e : Entry) : Bool :=
  e.counted && e.domain? == some d && !e.reached

theorem resetEntry_frame (s : State) (i : EntryIdx) :
    ∃ table domains, resetEntry s i = { s with table := table, domains := domains } := by
  unfold resetEntry
  split
  · split
    · exact ⟨_, _, rfl⟩
    · exact ⟨_, _, rfl⟩
    · exact freeEntry_frame i s
  · exact ⟨_, _, rfl⟩

theorem resetEntry_entry (s : State) (i j : EntryIdx) :
    (resetEntry s i).entry j = if j = i then (s.entry i).bind Entry.afterReset else s.entry j := by
  unfold resetEntry
  cases he : s.entry i with
  | none =>
    dsimp only
    split
    · subst j; simpa using he
    · rfl
  | some e =>
    cases hs : e.state
    case issued => simp [State.entry_setEntry, Entry.afterReset, Entry.reached, hs]
    case orphaned =>
      have hsame : { e with state := .orphaned } = e := by rw [← hs]
      dsimp only
      rw [hs]
      dsimp only
      split
      · subst j; simpa [Entry.afterReset, Entry.reached, hs, hsame] using he
      · rfl
    all_goals simp [freeEntry_entry, Entry.afterReset, Entry.reached, hs]

theorem resetEntry_dom (s : State) (i : EntryIdx) (d : DomainId) :
    (resetEntry s i).dom d =
      if (s.entry i).any (Entry.discardedIn d) then { s.dom d with inFlight := (s.dom d).inFlight - 1 } else s.dom d := by
  unfold resetEntry
  cases he : s.entry i with
  | none => simp
  | some e =>
    cases hs : e.state
    case issued => simp [Entry.discardedIn, Entry.reached, hs]
    case orphaned => simp [Entry.discardedIn, Entry.reached, hs]
    all_goals simp [freeEntry_dom, he, Entry.discardedIn, Entry.reached, hs, and_comm]

/-! ## Every entry -/

theorem foldl_resetEntry_frame (l : List EntryIdx) (s : State) :
    ∃ table domains, l.foldl resetEntry s = { s with table := table, domains := domains } := by
  induction l generalizing s with
  | nil => exact ⟨_, _, rfl⟩
  | cons i l ih =>
    obtain ⟨_, _, h⟩ := ih (resetEntry s i)
    obtain ⟨_, _, h'⟩ := resetEntry_frame s i
    exact ⟨_, _, by rw [List.foldl_cons, h, h']⟩

theorem foldl_resetEntry_entry {l : List EntryIdx} (hl : l.Nodup) (s : State) (j : EntryIdx) :
    (l.foldl resetEntry s).entry j = if j ∈ l then (s.entry j).bind Entry.afterReset else s.entry j := by
  induction l generalizing s with
  | nil => simp
  | cons i l ih =>
    obtain ⟨hi, hl⟩ := List.nodup_cons.mp hl
    rw [List.foldl_cons, ih hl, resetEntry_entry]
    by_cases hj : j = i
    · subst hj; simp [hi]
    · simp [hj]

theorem foldl_resetEntry_dom {l : List EntryIdx} (hl : l.Nodup) (s : State) (d : DomainId) :
    (l.foldl resetEntry s).dom d =
      { s.dom d with
        inFlight := (s.dom d).inFlight - l.countP (fun i => (s.entry i).any (Entry.discardedIn d)) } := by
  induction l generalizing s with
  | nil => rfl
  | cons i l ih =>
    obtain ⟨hi, hl⟩ := List.nodup_cons.mp hl
    have htail : l.countP (fun j => ((resetEntry s i).entry j).any (Entry.discardedIn d)) =
        l.countP (fun j => (s.entry j).any (Entry.discardedIn d)) := by
      refine List.countP_congr fun j hj => ?_
      rw [resetEntry_entry, if_neg (fun h : j = i => hi (h ▸ hj))]
    rw [List.foldl_cons, ih hl, htail, resetEntry_dom, List.countP_cons]
    split
    · simp only [Domain.mk.injEq, true_and, and_true]
      omega
    · rfl

/-! ## The response that waits -/

/-- The response that waits is the entry's. -/
def State.answers (s : State) (i : EntryIdx) : Bool :=
  s.forward.any (fun r => r.tag.toNat == i.val)

theorem countP_beq_and {α : Type} [BEq α] [LawfulBEq α] {l : List α} (hl : l.Nodup) (a : α) (p : α → Bool) :
    l.countP (fun b => b == a && p b) = if a ∈ l ∧ p a = true then 1 else 0 := by
  rw [← List.countP_filter, ← List.count, (hl.filter p).count]
  simp only [List.mem_filter]

theorem State.answers_eq {s : State} {r : MemResponse} (h : s.forward = some r) (i : EntryIdx) :
    s.answers i = (entryOf? r.tag).any (fun j => i == j) := by
  unfold State.answers entryOf?
  rw [h, Option.any_some, Bool.eq_iff_iff]
  split
  · rw [Option.any_some, beq_iff_eq, beq_iff_eq, Fin.ext_iff, eq_comm]
  · have := i.isLt
    simp
    omega

theorem dropForward_frame (s : State) :
    ∃ table domains, dropForward s = { s with table := table, domains := domains, forward := none } := by
  unfold dropForward
  split
  · split
    · obtain ⟨_, _, h⟩ := freeEntry_frame _ s
      exact ⟨_, _, by rw [h]⟩
    · exact ⟨_, _, rfl⟩
  · next h => exact ⟨s.table, s.domains, by rw [← h]⟩

theorem dropForward_entry (s : State) (i : EntryIdx) :
    (dropForward s).entry i = if s.answers i then none else s.entry i := by
  unfold dropForward
  cases hf : s.forward with
  | none => simp [State.answers, hf]
  | some r =>
    rw [State.answers_eq hf]
    dsimp only
    cases entryOf? r.tag with
    | none => rfl
    | some j =>
      simp only [Option.any_some, beq_iff_eq]
      exact freeEntry_entry j i s

theorem dropForward_dom (s : State) (d : DomainId) :
    (dropForward s).dom d =
      { s.dom d with
        inFlight := (s.dom d).inFlight -
          allEntries.countP (fun i =>
            s.answers i && (s.entry i).any (fun e => e.domain? == some d && e.counted)) } := by
  unfold dropForward
  cases hf : s.forward with
  | none => simp [State.answers, hf]
  | some r =>
    simp only [State.answers_eq hf]
    cases entryOf? r.tag with
    | none =>
      simp only [Option.any_none, Bool.false_and, List.countP_false]
      rfl
    | some j =>
      simp only [Option.any_some]
      rw [countP_beq_and (List.nodup_finRange 64) j]
      refine (freeEntry_dom j d s).trans ?_
      split <;> simp [*]

/-! ## The whole reset -/

theorem emptyPool_frame (s : State) :
    ∃ lists inits, emptyPool s =
      { s with domainLists := lists, openList := [], stalled := none, prompts := 0, holdBudget := 0,
               initiators := inits } :=
  ⟨_, _, rfl⟩

theorem emptyPool_held (s : State) (l : ListId) : (emptyPool s).held l = [] := by
  cases l <;> simp [emptyPool, State.held]

theorem emptyPool_init (s : State) (n : InitiatorId) : (emptyPool s).init n = { s.init n with heldCount := 0 } := by
  simp [emptyPool, State.init]

theorem emptyPool_entry (s : State) (i : EntryIdx) : (emptyPool s).entry i = s.entry i := rfl

theorem emptyPool_dom (s : State) (d : DomainId) : (emptyPool s).dom d = s.dom d := rfl

theorem emptyPool_answers (s : State) (i : EntryIdx) : (emptyPool s).answers i = s.answers i := rfl

theorem allEntries_nodup : allEntries.Nodup :=
  List.nodup_finRange 64


/-- The entry and its count are given up by a port reset: it is discarded, or its response waits and is dropped. -/
def State.lostIn (s : State) (d : DomainId) (i : EntryIdx) : Bool :=
  (s.entry i).any (fun e => e.counted && e.domain? == some d && (s.answers i || !e.reached))

theorem lost_eq (s : State) (d : DomainId) (i : EntryIdx) :
    s.lostIn d i = ((s.entry i).any (Entry.discardedIn d) ||
      (s.answers i && ((s.entry i).bind Entry.afterReset).any (fun e => e.domain? == some d && e.counted))) := by
  unfold State.lostIn
  cases s.entry i with
  | none => simp
  | some e =>
    cases hr : e.reached
    · simp [Entry.discardedIn, Entry.afterReset, hr]
    · have hdom : Entry.domain? { e with state := .orphaned } = e.domain? := rfl
      simp [Entry.discardedIn, Entry.afterReset, hr, hdom, Bool.and_comm]

end Sys2Proof.Machine

namespace Sys2Proof.Proofs

set_option Elab.async false

open Machine Claims

/-- The state of a port reset before its record: every entry reset, the pool emptied, the waiting response dropped. -/
def emptied (s : State) : State :=
  dropForward (emptyPool (allEntries.foldl resetEntry s))

theorem exec_portReset_of_inactive {s : State} (hr : s.inReset = false) (hp : s.portReset = false) :
    exec .portReset s = .next (resetPort s) := by
  rw [exec_portReset_def, execPortReset, hr, hp]
  rfl

theorem emptied_frame (s : State) :
    ∃ table domains lists inits, emptied s =
      { s with table := table, domains := domains, domainLists := lists, openList := [], stalled := none
               prompts := 0, holdBudget := 0, initiators := inits, forward := none } := by
  unfold emptied
  generalize allEntries = l
  obtain ⟨_, _, h⟩ := foldl_resetEntry_frame l s
  obtain ⟨_, _, h'⟩ := emptyPool_frame (l.foldl resetEntry s)
  obtain ⟨_, _, h''⟩ := dropForward_frame (emptyPool (l.foldl resetEntry s))
  exact ⟨_, _, _, _, by rw [h'', h', h]⟩

theorem foldl_resetEntry_answers (l : List EntryIdx) (s : State) (i : EntryIdx) :
    (l.foldl resetEntry s).answers i = s.answers i := by
  obtain ⟨_, _, h⟩ := foldl_resetEntry_frame l s
  rw [h]
  rfl

theorem emptied_entry (s : State) (i : EntryIdx) :
    (emptied s).entry i = if s.answers i then none else (s.entry i).bind Entry.afterReset := by
  rw [emptied, dropForward_entry, emptyPool_answers, emptyPool_entry, foldl_resetEntry_answers,
    foldl_resetEntry_entry allEntries_nodup, if_pos (List.mem_finRange i)]

theorem emptied_entry_of_some {s : State} {i : EntryIdx} {e : Entry} (h : s.entry i = some e) :
    (emptied s).entry i =
      if s.answers i = true ∨ e.reached = false then none else some { e with state := .orphaned } := by
  rw [emptied_entry, h, Option.bind_some, Entry.afterReset]
  cases s.answers i <;> cases e.reached <;> rfl

theorem countP_lostIn (s : State) (d : DomainId) (l : List EntryIdx) :
    l.countP (s.lostIn d) =
      l.countP (fun i => (s.entry i).any (Entry.discardedIn d)) +
        l.countP (fun i => s.answers i &&
          ((s.entry i).bind Entry.afterReset).any (fun e => e.domain? == some d && e.counted)) := by
  rw [countP_add_of_disjoint]
  · exact List.countP_congr fun i _ => by rw [lost_eq]
  · intro i _ hi
    cases he : s.entry i with
    | none => simp
    | some e =>
      have hr : e.reached = false := by
        simp only [he, Option.any_some, Entry.discardedIn] at hi
        simp_all
      simp [Entry.afterReset, hr]

theorem emptied_dom (s : State) (d : DomainId) :
    (emptied s).dom d =
      { s.dom d with inFlight := (s.dom d).inFlight - allEntries.countP (s.lostIn d) } := by
  rw [emptied, dropForward_dom, emptyPool_dom, foldl_resetEntry_dom allEntries_nodup, countP_lostIn, ← Nat.sub_sub]
  simp only [emptyPool_answers, emptyPool_entry, foldl_resetEntry_answers, foldl_resetEntry_entry allEntries_nodup,
    if_pos (List.mem_finRange _)]

theorem emptied_held (s : State) (l : ListId) : (emptied s).held l = [] := by
  unfold emptied
  generalize allEntries.foldl resetEntry s = u
  obtain ⟨_, _, h⟩ := dropForward_frame (emptyPool u)
  rw [h]
  exact emptyPool_held u l

theorem emptied_init (s : State) (n : InitiatorId) : (emptied s).init n = { s.init n with heldCount := 0 } := by
  unfold emptied
  generalize allEntries = l
  obtain ⟨_, _, h⟩ := foldl_resetEntry_frame l s
  obtain ⟨_, _, h'⟩ := dropForward_frame (emptyPool (l.foldl resetEntry s))
  rw [h', h]
  exact emptyPool_init _ n

/-- What a port reset does beside `emptied`: the stage, the turns and the pin, and the record's place in the queue. -/
def resetPortAfter (s u : State) : State :=
  { u with
    stage := none, issueTurn := .release, returnTurn := .forward, portReset := true
    events := (offer
      { plain .portReset s.timebase with
        detail := BitVec.ofNat 16 (s.countEntries (fun e => e.state == .issued))
        value := BitVec.ofNat 32 (s.countEntries (fun e => !e.reached)) } s).events }

theorem resetPort_eq (s : State) : resetPort s = resetPortAfter s (emptied s) := by
  unfold resetPort resetPortAfter
  rw [s.countIn_eq, s.discarded_eq]
  obtain ⟨_, _, _, _, h⟩ := emptied_frame s
  unfold emptied at h ⊢
  rw [h]
  generalize s.countEntries (fun e => e.state == .issued) = issued
  generalize s.countEntries (fun e => !e.reached) = lost
  simp only [h, offer_eq]
  rfl

/-- Settles O42: the entries, the counts and the pool after `emptied`, then the record and the state of the port. -/
theorem portResetDiscardsAndOrphans : Obligations.PortResetDiscardsAndOrphans := by
  intro s hr hp reached answered
  have hentry := fun i => emptied_entry s i
  have hsome := fun (i : EntryIdx) (e : Entry) => emptied_entry_of_some (s := s) (i := i) (e := e)
  have hdom := emptied_dom s
  have hheld := emptied_held s
  have hinit := emptied_init s
  obtain ⟨_, _, _, _, h⟩ := emptied_frame s
  refine ⟨resetPortAfter s (emptied s), by rw [exec_portReset_of_inactive hr hp, resetPort_eq], ?_⟩
  generalize emptied s = u at *
  subst h
  refine ⟨hsome, fun i hi => (hentry i).trans (by rw [hi, Option.bind_none, ite_self]), fun d => ⟨_, hdom d, ?_⟩,
    hheld, rfl, rfl, rfl, hinit, rfl, rfl, rfl, rfl, rfl, rfl, rfl, rfl, rfl, rfl, rfl, rfl, rfl, rfl, rfl, rfl,
    rfl, rfl, rfl, hr⟩
  exact congrArg (List.countP · allEntries) (funext fun _ => rfl)

end Sys2Proof.Proofs
end

section
/-! What declining a run of entries does, one after another: the entries, their records, and the places they give up
(R67, R84, R99, R144). -/

namespace Sys2Proof.Proofs

-- One proof after another: the memory of a compile grows with the proofs that run at once.
set_option Elab.async false

open Sys2Proof.Machine Sys2Proof.Claims

/-- The event queue after the record of a decline, under the event control and at the timebase (R144). -/
def queuedDecline (control : EventControl) (time : Word) (c : DeclineCode) (q : List Event) (e : Entry) : List Event :=
  if e.reportDeclines && control.records (declineEvent e c time).kind then enqueue q (declineEvent e c time) else q

theorem declineReported_eq (e : Entry) (c : DeclineCode) (s : State) :
    declineReported e c s = queuedDecline s.control s.timebase c s.events e := by
  unfold declineReported queuedDecline
  rw [offer_eq]
  cases e.reportDeclines <;> simp

theorem foldl_declineReported (c : DeclineCode) (l : List Entry) (s : State) :
    (l.foldl (fun u e => { u with events := declineReported e c u }) s).events =
      l.foldl (queuedDecline s.control s.timebase c) s.events := by
  induction l generalizing s with
  | nil => rfl
  | cons e l ih => rw [List.foldl_cons, ih, List.foldl_cons, declineReported_eq]

/-- The entries of a list, and no others, have been declined in its order, each giving up its place of the pool. -/
structure DeclinedAll (c : DeclineCode) (l : List EntryIdx) (s t : State) : Prop where
  entry : ∀ j, t.entry j = if j ∈ l then (s.entry j).map (decliningEntry c) else s.entry j
  events : t.events = (l.filterMap s.entry).foldl (queuedDecline s.control s.timebase c) s.events
  budget : t.holdBudget = s.holdBudget - l.length
  init : ∀ n, t.init n =
    { s.init n with
      heldCount := (s.init n).heldCount - l.countP (fun i => (s.entry i).any (fun e => e.initiator == n)) }
  control : t.control = s.control
  timebase : t.timebase = s.timebase

theorem DeclinedAll.refl (c : DeclineCode) (s : State) : DeclinedAll c [] s s :=
  ⟨fun _ => rfl, rfl, rfl, fun _ => rfl, rfl, rfl⟩

theorem DeclinedAll.trans {c : DeclineCode} {l k : List EntryIdx} {s t u : State} (h : DeclinedAll c l s t)
    (h' : DeclinedAll c k t u) (hd : ∀ i ∈ k, i ∉ l) : DeclinedAll c (l ++ k) s u := by
  have hk : ∀ i ∈ k, t.entry i = s.entry i := fun i hi => by rw [h.entry, if_neg (hd i hi)]
  refine ⟨fun j => ?_, ?_, ?_, fun n => ?_, h'.control.trans h.control, h'.timebase.trans h.timebase⟩
  · rw [h'.entry]
    by_cases hj : j ∈ k
    · rw [if_pos hj, if_pos (List.mem_append_right l hj), hk j hj]
    · rw [if_neg hj, h.entry]
      simp only [List.mem_append, hj, or_false]
  · rw [h'.events, h.events, h.control, h.timebase, List.filterMap_append, List.foldl_append,
      List.filterMap_congr hk]
  · rw [h'.budget, h.budget, List.length_append, Nat.sub_sub]
  · have hcount : k.countP (fun i => (t.entry i).any (fun e => e.initiator == n)) =
        k.countP (fun i => (s.entry i).any (fun e => e.initiator == n)) :=
      List.countP_congr fun i hi => by rw [hk i hi]
    rw [h'.init, h.init, hcount, List.countP_append, Nat.sub_sub]

/-- One entry that gives up its place and is declined, in a state that has the same records, queue and settings. -/
theorem declinedAll_single {c : DeclineCode} {i : EntryIdx} {e : Entry} {s u : State} (h : s.entry i = some e)
    (ht : u.table = s.table) (hi : u.initiators = s.initiators) (hb : u.holdBudget = s.holdBudget)
    (hv : u.events = s.events) (hc : u.control = s.control) (hn : u.timebase = s.timebase) :
    DeclinedAll c [i] s (decline i c (givePlace e.initiator u)) := by
  have hentry : ∀ j, (givePlace e.initiator u).entry j = s.entry j := fun j => by
    rw [State.entry, State.entry, ← ht]
    rfl
  rw [decline_eq c ((hentry i).trans h)]
  refine ⟨fun j => ?_, ?_, ?_, fun n => ?_, hc, hn⟩
  · refine (State.entry_setEntry _ j i _).trans ?_
    rw [hentry]
    split
    · next hj => subst hj; simp [h]
    · next hj => simp [hj]
  · refine (declineReported_eq e c (givePlace e.initiator u)).trans ?_
    rw [show (givePlace e.initiator u).control = s.control from hc,
      show (givePlace e.initiator u).timebase = s.timebase from hn,
      show (givePlace e.initiator u).events = s.events from hv]
    simp [h]
  · exact congrArg (· - 1) hb
  · have hinit : ∀ m, u.init m = s.init m := fun m => by rw [State.init, State.init, hi]
    refine (State.init_setInit u n e.initiator _).trans ?_
    rw [hinit, hinit]
    by_cases hm : e.initiator = n
    · subst hm; simp [h]
    · simp [h, hm, Ne.symm hm]

theorem declinedAll_declineHeld {c : DeclineCode} {i : EntryIdx} {e : Entry} {s : State} (h : s.entry i = some e) :
    DeclinedAll c [i] s (declineHeld c s i) := by
  unfold declineHeld
  rw [h]
  exact declinedAll_single h rfl rfl rfl rfl rfl rfl

theorem declinedAll_declineStalled {c : DeclineCode} {i : EntryIdx} {e : Entry} {s : State} (h : s.entry i = some e) :
    DeclinedAll c [i] s (declineStalled c s i) := by
  unfold declineStalled
  rw [h]
  exact declinedAll_single h rfl rfl rfl rfl rfl rfl

/-- A run of declines that each act on their own entry. -/
theorem declinedAll_foldl {c : DeclineCode} {f : State → EntryIdx → State}
    (hf : ∀ s i e, s.entry i = some e → DeclinedAll c [i] s (f s i)) {l : List EntryIdx} (hl : l.Nodup) {s : State}
    (hlive : ∀ i ∈ l, (s.entry i).isSome) : DeclinedAll c l s (l.foldl f s) := by
  induction l generalizing s with
  | nil => exact .refl c s
  | cons i l ih =>
    obtain ⟨hi, hl⟩ := List.nodup_cons.mp hl
    obtain ⟨e, he⟩ := Option.isSome_iff_exists.mp (hlive i List.mem_cons_self)
    have hhead := hf s i e he
    have hne : ∀ j ∈ l, j ∉ [i] := fun j hj h => hi (List.mem_singleton.mp h ▸ hj)
    refine hhead.trans (ih hl fun j hj => ?_) hne
    rw [hhead.entry, if_neg (hne j hj)]
    exact hlive j (List.mem_cons_of_mem i hj)

theorem DeclinedAll.prompt {c : DeclineCode} {l : List EntryIdx} {s t : State} (h : DeclinedAll c l s t) :
    DeclinedAll c l s (prompt t) := by
  rw [prompt_eq]
  exact ⟨h.entry, h.events, h.budget, h.init, h.control, h.timebase⟩

/-! ## Counting the entries of a list -/

theorem countEntries_and_of_mem_iff {l : List EntryIdx} {s : State} {p : Entry → Bool} (hl : l.Nodup)
    (hmem : ∀ i, i ∈ l ↔ (s.entry i).any p = true) (q : Entry → Bool) :
    s.countEntries (fun e => p e && q e) = l.countP (fun i => (s.entry i).any q) := by
  have hperm : (allEntries.filter fun i => (s.entry i).any p).Perm l :=
    (List.perm_ext_iff_of_nodup (allEntries_nodup.filter _) hl).mpr fun i => by
      rw [List.mem_filter, hmem, and_iff_right (List.mem_finRange i)]
  rw [← hperm.countP_eq, List.countP_filter]
  refine List.countP_congr fun i _ => ?_
  cases s.entry i <;> simp [and_comm]

theorem countEntries_of_mem_iff {l : List EntryIdx} {s : State} {p : Entry → Bool} (hl : l.Nodup)
    (hmem : ∀ i, i ∈ l ↔ (s.entry i).any p = true) : s.countEntries p = l.length := by
  have hlive : ∀ i ∈ l, (s.entry i).any (fun _ => true) = true := fun i hi => by
    have hi := (hmem i).mp hi
    cases he : s.entry i <;> simp_all
  have h := countEntries_and_of_mem_iff hl hmem fun _ => true
  rw [List.countP_eq_length.mpr hlive] at h
  simpa using h

theorem filter_filterMap_eq {α β : Type} (f : α → Option β) (p : β → Bool) (l : List α) :
    (l.filterMap f).filter p = (l.filter fun a => (f a).any p).filterMap f := by
  rw [List.filter_filterMap, List.filterMap_filter]
  congr 1
  funext a
  cases f a with
  | none => rfl
  | some b => cases hb : p b <;> simp [hb]

end Sys2Proof.Proofs
end

section
/-! A mass decline under the laws of the pool, and FLUSH (R30, R82, R96, R99, R103). -/

namespace Sys2Proof.Proofs

-- One proof after another: the memory of a compile grows with the proofs that run at once.
set_option Elab.async false

open Sys2Proof.Machine Sys2Proof.Claims

/-! ## The entries a mass decline chooses -/

/-- The entry stands in the domain's list and is selected. -/
def listedIn (d : DomainId) (sel : Entry → Bool) (e : Entry) : Bool :=
  e.state == .held && e.domain? == some d && sel e

/-- The entry is the domain's STALLED entry and is selected. -/
def parkedIn (d : DomainId) (sel : Entry → Bool) (e : Entry) : Bool :=
  e.state == .stalled && e.domain? == some d && sel e

theorem parkedIn_of_listedIn {d : DomainId} {sel : Entry → Bool} {e : Entry} (h : listedIn d sel e = true)
    (selStalled : Entry → Bool) : parkedIn d selStalled e = false := by
  have hs : e.state = .held := by
    simp only [listedIn, Bool.and_eq_true, beq_iff_eq] at h
    exact h.1.1
  rw [parkedIn, hs]
  rfl

theorem exists_of_any_listedIn {d : DomainId} {sel : Entry → Bool} {o : Option Entry}
    (h : o.any (listedIn d sel) = true) : ∃ e, o = some e ∧ e.state = .held ∧ e.domain? = some d := by
  cases o with
  | none => simp at h
  | some e =>
    simp only [Option.any_some, listedIn, Bool.and_eq_true, beq_iff_eq] at h
    exact ⟨e, rfl, h.1⟩

theorem exists_of_any_parkedIn {d : DomainId} {sel : Entry → Bool} {o : Option Entry}
    (h : o.any (parkedIn d sel) = true) : ∃ e, o = some e ∧ e.state = .stalled := by
  cases o with
  | none => simp at h
  | some e =>
    simp only [Option.any_some, parkedIn, Bool.and_eq_true, beq_iff_eq] at h
    exact ⟨e, rfl, h.1.1⟩

theorem mem_allLists (l : ListId) : l ∈ allLists := by
  cases l <;> simp

theorem domain?_eq_some_iff {e : Entry} {d : DomainId} : e.domain? = some d ↔ e.list = some (.domain d) := by
  unfold Entry.domain?
  cases e.list with
  | none => simp
  | some l => cases l <;> simp [ListId.domain?]

theorem selectedStalled_of_none {s : State} (hn : s.stalled = none) (d : DomainId) (sel : Entry → Bool) :
    selectedStalled d sel s = [] := by
  rw [selectedStalled, hn]

theorem selectedStalled_nodup (d : DomainId) (sel : Entry → Bool) (s : State) : (selectedStalled d sel s).Nodup := by
  rcases selectedStalled_cases d sel s with hnil | ⟨j, -, hone⟩
  · simp [hnil]
  · simp [hone]

section Chosen

variable {s : State} (h : PoolKept s) (d : DomainId) (sel selStalled : Entry → Bool)
include h

theorem held_live {l : ListId} {i : EntryIdx} (hi : i ∈ s.held l) :
    ∃ e, s.entry i = some e ∧ e.state = .held ∧ e.list = some l := by
  obtain ⟨_, ⟨hlive, _, _⟩, _⟩ := h
  exact hlive l (mem_allLists l) i hi

theorem held_nodup (l : ListId) : (s.held l).Nodup := by
  obtain ⟨_, ⟨_, _, hsorted⟩, _⟩ := h
  exact (hsorted l (mem_allLists l)).imp fun hlt heq => by simp [heq] at hlt

theorem stalled_live {i : EntryIdx} (hi : s.stalled = some i) : ∃ e, s.entry i = some e ∧ e.state = .stalled := by
  obtain ⟨_, _, ⟨hstalled, _⟩, _⟩ := h
  have hin := (hstalled i).mp hi
  unfold State.entryIn at hin
  cases he : s.entry i <;> simp_all

theorem stalled_of_entry {i : EntryIdx} {e : Entry} (he : s.entry i = some e) (hs : e.state = .stalled) :
    s.stalled = some i := by
  obtain ⟨_, _, ⟨hstalled, _⟩, _⟩ := h
  exact (hstalled i).mpr (by simp [State.entryIn, he, hs])

theorem any_listedIn_of_held {i : EntryIdx} (hi : i ∈ s.held (.domain d)) :
    (s.entry i).any (listedIn d sel) = (s.entry i).any sel := by
  obtain ⟨e, he, hs, hl⟩ := held_live h hi
  simp [he, listedIn, hs, domain?_eq_some_iff.mpr hl]

theorem selectedHeld_eq : selectedHeld d sel s = (s.held (.domain d)).filter fun i => (s.entry i).any sel := by
  refine List.filter_congr fun i hi => ?_
  obtain ⟨e, he, -, -⟩ := held_live h hi
  simp only [he, Option.any_some]

theorem mem_selectedHeld (i : EntryIdx) : i ∈ selectedHeld d sel s ↔ (s.entry i).any (listedIn d sel) = true := by
  rw [selectedHeld_eq h, List.mem_filter]
  constructor
  · rintro ⟨hi, hsel⟩
    rwa [any_listedIn_of_held h d sel hi]
  · intro hany
    have hi : i ∈ s.held (.domain d) := by
      obtain ⟨e, he, hs, hd⟩ := exists_of_any_listedIn hany
      obtain ⟨_, ⟨_, hlisted, _⟩, _⟩ := h
      obtain ⟨l, hl, hi⟩ := hlisted i e he hs
      rw [domain?_eq_some_iff.mp hd, Option.mem_some_iff] at hl
      exact hl ▸ hi
    exact ⟨hi, by rwa [← any_listedIn_of_held h d sel hi]⟩

theorem selectedStalled_eq {i : EntryIdx} {e : Entry} (hi : s.stalled = some i) (he : s.entry i = some e) :
    selectedStalled d selStalled s = if parkedIn d selStalled e then [i] else [] := by
  obtain ⟨f, hf, hs⟩ := stalled_live h hi
  obtain rfl : e = f := by simpa [he] using hf
  simp [selectedStalled, hi, he, parkedIn, hs]

theorem mem_selectedStalled (i : EntryIdx) :
    i ∈ selectedStalled d selStalled s ↔ (s.entry i).any (parkedIn d selStalled) = true := by
  constructor
  · intro hi
    rcases selectedStalled_cases d selStalled s with hnil | ⟨j, hj, hone⟩
    · simp [hnil] at hi
    · obtain rfl : i = j := by simpa [hone] using hi
      obtain ⟨e, he, -⟩ := stalled_live h hj
      rw [selectedStalled_eq h d selStalled hj he] at hi
      rw [he, Option.any_some]
      by_contra hp
      simp [hp] at hi
  · intro hany
    obtain ⟨e, he, hs⟩ := exists_of_any_parkedIn hany
    rw [he, Option.any_some] at hany
    rw [selectedStalled_eq h d selStalled (stalled_of_entry h he hs) he, if_pos hany]
    exact List.mem_singleton_self i

/-- The entries a mass decline chooses, in the order of its declines. -/
theorem mem_selected (i : EntryIdx) :
    i ∈ selectedHeld d sel s ++ selectedStalled d selStalled s ↔
      (s.entry i).any (fun e => listedIn d sel e || parkedIn d selStalled e) = true := by
  rw [List.mem_append, mem_selectedHeld h, mem_selectedStalled h]
  cases s.entry i <;> simp

theorem selectedHeld_nodup : (selectedHeld d sel s).Nodup :=
  (held_nodup h _).filter _

theorem selectedStalled_disjoint {i : EntryIdx} (hi : i ∈ selectedStalled d selStalled s) :
    i ∉ selectedHeld d sel s := by
  rw [mem_selectedStalled h] at hi
  rw [mem_selectedHeld h]
  intro hany
  cases he : s.entry i with
  | none => simp [he] at hany
  | some e =>
    simp only [he, Option.any_some] at hi hany
    simp [parkedIn_of_listedIn hany] at hi

theorem selected_nodup : (selectedHeld d sel s ++ selectedStalled d selStalled s).Nodup :=
  List.nodup_append'.mpr ⟨selectedHeld_nodup h d sel, selectedStalled_nodup d selStalled _,
    fun _ hi hi' => selectedStalled_disjoint h d sel selStalled hi' hi⟩

theorem selected_live {i : EntryIdx} (hi : i ∈ selectedHeld d sel s ++ selectedStalled d selStalled s) :
    (s.entry i).isSome := by
  rw [mem_selected h] at hi
  cases he : s.entry i <;> simp_all

/-- The order of a mass decline: the chosen entries of the list, head first, and then the chosen STALLED entry. -/
theorem selected_eq_filter :
    selectedHeld d sel s ++ selectedStalled d selStalled s =
      (s.held (.domain d) ++ s.stalled.toList).filter fun i =>
        (s.entry i).any fun e => listedIn d sel e || parkedIn d selStalled e := by
  rw [List.filter_append]
  congr 1
  · rw [selectedHeld_eq h]
    refine List.filter_congr fun i hi => ?_
    obtain ⟨e, he, hs, hl⟩ := held_live h hi
    simp [he, listedIn, parkedIn, hs, domain?_eq_some_iff.mpr hl]
  · cases hi : s.stalled with
    | none => exact selectedStalled_of_none hi d selStalled
    | some i =>
      obtain ⟨e, he, hs⟩ := stalled_live h hi
      have hl : listedIn d sel e = false := by simp [listedIn, hs]
      rw [selectedStalled_eq h d selStalled hi he]
      cases hp : parkedIn d selStalled e <;> simp [he, hl, hp]

/-! ## What a mass decline leaves -/

/-- A mass decline declines the chosen entries, one after another (R99). -/
theorem declinedAll_massDecline (c : DeclineCode) :
    DeclinedAll c (selectedHeld d sel s ++ selectedStalled d selStalled s) s (massDecline d sel selStalled c s) := by
  have hheld : DeclinedAll c (selectedHeld d sel s) s ((selectedHeld d sel s).foldl (declineHeld c) s) :=
    declinedAll_foldl (fun _ _ _ => declinedAll_declineHeld) (selectedHeld_nodup h d sel) fun i hi =>
      selected_live h d sel selStalled (List.mem_append_left _ hi)
  have hstalled := declinedAll_foldl (c := c) (s := (selectedHeld d sel s).foldl (declineHeld c) s)
    (fun _ _ _ => declinedAll_declineStalled) (selectedStalled_nodup d selStalled _) fun i hi => by
      rw [hheld.entry, if_neg (selectedStalled_disjoint h d sel selStalled hi)]
      exact selected_live h d sel selStalled (List.mem_append_right _ hi)
  have hall := hheld.trans hstalled fun i hi => selectedStalled_disjoint h d sel selStalled hi
  unfold massDecline
  simp only
  split
  · exact hall
  · exact hall.prompt

theorem selectedHeld_isEmpty : (selectedHeld d sel s).isEmpty = decide (s.countEntries (listedIn d sel) = 0) := by
  rw [countEntries_of_mem_iff (selectedHeld_nodup h d sel) (mem_selectedHeld h d sel)]
  cases selectedHeld d sel s <;> simp

end Chosen

/-- The lists, the stall slot and the prompts after a mass decline. -/
theorem massDecline_held (d : DomainId) (sel selStalled : Entry → Bool) (c : DeclineCode) (s : State) (l : ListId) :
    (massDecline d sel selStalled c s).held l = (s.held l).filter fun j => !(selectedHeld d sel s).contains j := by
  rw [← foldl_declineHeld_held c]
  unfold massDecline
  simp only
  generalize (selectedHeld d sel s).foldl (declineHeld c) s = u
  have hstalled : ((selectedStalled d selStalled s).foldl (declineStalled c) u).held l = u.held l := by
    rcases selectedStalled_cases d selStalled s with hnil | ⟨i, -, hone⟩
    · rw [hnil]; rfl
    · rw [hone, List.foldl_cons, List.foldl_nil]
      obtain ⟨_, _, _, _, hframe⟩ := declineStalled_frame c u i
      rw [hframe]
      rfl
  split
  · exact hstalled
  · rw [prompt_eq]
    exact hstalled

theorem massDecline_of_unselected {d : DomainId} {selStalled : Entry → Bool} {s : State}
    (hn : selectedStalled d selStalled s = []) (sel : Entry → Bool) (c : DeclineCode) :
    (massDecline d sel selStalled c s).stalled = s.stalled ∧
      (massDecline d sel selStalled c s).prompts =
        if (selectedHeld d sel s).isEmpty = true ∨ s.stalled = none then s.prompts else s.prompts + 1 := by
  obtain ⟨_, _, _, _, _, _, hframe⟩ := foldl_declineHeld_frame c (selectedHeld d sel s) s
  unfold massDecline
  simp only [hn, List.foldl_nil, hframe, prompt_eq]
  cases s.stalled <;> cases (selectedHeld d sel s).isEmpty <;> simp

theorem massDecline_of_selected {d : DomainId} {selStalled : Entry → Bool} {s : State} {i : EntryIdx}
    (hone : selectedStalled d selStalled s = [i]) (sel : Entry → Bool) (c : DeclineCode) :
    (massDecline d sel selStalled c s).stalled = none ∧ (massDecline d sel selStalled c s).prompts = 0 := by
  unfold massDecline
  simp only [hone, List.foldl_cons, List.foldl_nil]
  obtain ⟨_, _, _, _, hframe⟩ := declineStalled_frame c ((selectedHeld d sel s).foldl (declineHeld c) s) i
  rw [hframe, prompt_eq]
  cases (selectedHeld d sel s).isEmpty <;> simp

theorem filter_selectedHeld_same {s : State} (h : PoolKept s) (d : DomainId) (sel : Entry → Bool) :
    ((s.held (.domain d)).filter fun j => !(selectedHeld d sel s).contains j) =
      (s.held (.domain d)).filter fun i => !(s.entry i).any sel := by
  refine List.filter_congr fun i hi => ?_
  rw [← any_listedIn_of_held h d sel hi, List.contains_eq_mem, decide_eq_decide.mpr (mem_selectedHeld h d sel i),
    Bool.decide_coe]

theorem filter_selectedHeld_other {s : State} (h : PoolKept s) {d : DomainId} {l : ListId} (hl : l ≠ .domain d)
    (sel : Entry → Bool) : ((s.held l).filter fun j => !(selectedHeld d sel s).contains j) = s.held l := by
  refine List.filter_eq_self.mpr fun i hi => ?_
  have hout : i ∉ selectedHeld d sel s := fun hin => by
    rw [selectedHeld_eq h, List.mem_filter] at hin
    obtain ⟨e, he, -, hlist⟩ := held_live h hi
    obtain ⟨f, hf, -, hlist'⟩ := held_live h hin.1
    simp_all
  simpa using hout

theorem chosen_le_holdBudget {s : State} (h : PoolKept s) (d : DomainId) (sel selStalled : Entry → Bool) :
    s.countEntries (fun e => listedIn d sel e || parkedIn d selStalled e) ≤ s.holdBudget := by
  obtain ⟨_, _, _, ⟨_, hbudget, _⟩, _⟩ := h
  rw [hbudget]
  refine List.countP_mono_left fun i _ => ?_
  cases s.entry i with
  | none => simp
  | some e =>
    simp only [Option.any_some, listedIn, parkedIn, Entry.inPool, Bool.or_eq_true, Bool.and_eq_true]
    exact Or.imp (fun hp => hp.1.1) fun hp => hp.1.1

theorem massDecline_stalled {s : State} (h : PoolKept s) (d : DomainId) (sel selStalled : Entry → Bool)
    (c : DeclineCode) {i : EntryIdx} {e : Entry} (hi : s.stalled = some i) (he : s.entry i = some e) :
    (massDecline d sel selStalled c s).stalled = (if parkedIn d selStalled e then none else some i) ∧
      (massDecline d sel selStalled c s).prompts =
        if parkedIn d selStalled e then 0
        else if s.countEntries (listedIn d sel) = 0 then s.prompts else s.prompts + 1 := by
  have hsel := selectedStalled_eq h d selStalled hi he
  cases hp : parkedIn d selStalled e
  · rw [hp, if_neg Bool.false_ne_true] at hsel
    have hrest := massDecline_of_unselected hsel sel c
    rw [selectedHeld_isEmpty h, hi] at hrest
    simpa using hrest
  · rw [hp, if_pos rfl] at hsel
    exact massDecline_of_selected hsel sel c

/-- FLUSH by the domain it names: the mass decline of every entry and the drain it may complete (R30, R171). -/
theorem exec_flush_of_domain {s : State} {b argument : Byte} {d : DomainId}
    (hf : s.awaits (some .domainAction) = true) (hd : domainOf? b = some d) :
    exec (.flush b argument) s = .next (takeFlush d s) := by
  simp [exec_flush_def, execFlush, hf, hd]

/-- Settles O22: the mass decline by `DeclinedAll` over the entries it chooses, FLUSH by its arm. -/
theorem flushDeclinesTheDomain : Obligations.FlushDeclinesTheDomain := by
  refine ⟨fun s d c sel selStalled h => ?_, fun s argument hf => ⟨fun b hb => ?_, fun d => ?_⟩⟩
  · intro listed parked chosen t
    have hall := declinedAll_massDecline h d sel selStalled c
    have hmem := mem_selected h d sel selStalled
    have hnodup := selected_nodup h d sel selStalled
    have hcount : s.countEntries chosen = massDeclineCount d sel selStalled s :=
      (countEntries_of_mem_iff hnodup hmem).trans List.length_append
    have hbudget := chosen_le_holdBudget h d sel selStalled
    refine ⟨fun i e he => ?_, fun i he => ?_, ?_, fun l hl => ?_, hcount.symm, ?_, fun n => ?_, fun i e hi he => ?_,
      fun hn => ?_, ?_, ?_⟩
    · rw [hall.entry, he]
      have hi := hmem i
      rw [he, Option.any_some] at hi
      exact if_congr hi rfl rfl
    · rw [hall.entry, he]
      exact ite_self _
    · exact (massDecline_held ..).trans (filter_selectedHeld_same h d sel)
    · exact (massDecline_held ..).trans (filter_selectedHeld_other h hl sel)
    · have hlen := countEntries_of_mem_iff hnodup hmem
      rw [hall.budget, ← hlen]
      exact Nat.sub_add_cancel hbudget
    · rw [hall.init, ← countEntries_and_of_mem_iff hnodup hmem]
      rfl
    · exact massDecline_stalled h d sel selStalled c hi he
    · have hrest := massDecline_of_unselected (selectedStalled_of_none hn d selStalled) sel c
      rw [hn] at hrest
      simpa using hrest
    · intro order
      rw [hall.events, selected_eq_filter h, ← filter_filterMap_eq]
      exact (foldl_declineReported c order s).symm
    · obtain ⟨_, _, _, _, _, _, _, _, hframe⟩ := massDecline_frame d sel selStalled c s
      rw [show t = _ from hframe]
      exact ⟨rfl, rfl, rfl, rfl, rfl, rfl, rfl, rfl, rfl, rfl, rfl, rfl, rfl, rfl, rfl, rfl, rfl, rfl, rfl, rfl⟩
  · simp [exec_flush_def, execFlush, hf, domainOf?_eq_none hb, actionRefused_eq, Status.value]
  · intro t
    rw [exec_flush_of_domain hf (domainOf?_ofNat d), takeFlush, actionReply_eq, completeDrain_eq]
    rfl

end Sys2Proof.Proofs
end

section
/-! The settings of the part, and the counting of its traffic: what an operation leaves of both, said once for every operation
and command that neither sets a setting nor moves traffic (R34, R50, R70, R86, R143, R153, R158, R163). -/

namespace Sys2Proof.Machine

-- One proof after another: the memory of a compile grows with the proofs that run at once.
set_option Elab.async false

open Sys2Proof.Claims Sys2Proof.Proofs

/-! ## The relations -/

/-- The settings, each of which one command alone can change, are as they were. -/
structure SameSettings (s t : State) : Prop where
  pending : t.pending = s.pending
  inReset : t.inReset = s.inReset
  timebase : t.timebase = s.timebase
  mode : t.mode = s.mode
  windows : t.windows = s.windows
  control : t.control = s.control
  quotas : ∀ n, (t.init n).quota = (s.init n).quota ∧ (t.init n).strict = (s.init n).strict
  aborted : t.port.aborted = s.port.aborted
  portReset : t.portReset = s.portReset

/-- What the law of the in-flight counts reads of an entry (R50, R57). -/
def Entry.traffic (e : Entry) : Bool × Bool × Option DomainId :=
  (e.inFlight, e.counted, e.domain?)

/-- The law of the in-flight counts reads the same of both states. -/
structure Steady (s t : State) : Prop where
  entry : ∀ i, (t.entry i).map Entry.traffic = (s.entry i).map Entry.traffic
  inFlight : ∀ d, (t.dom d).inFlight = (s.dom d).inFlight

/-- No entry of the hold pool is in flight. -/
structure Parked (s : State) : Prop where
  held : ∀ l, ∀ i ∈ s.held l, ∀ e ∈ s.entry i, e.inFlight = false
  stalled : ∀ i ∈ s.stalled, ∀ e ∈ s.entry i, e.inFlight = false

/-- The settings are as they were, no entry has joined the hold pool, and while that holds no entry in flight the counting of
traffic is as it was. -/
structure Undisturbed (s t : State) : Prop where
  settings : SameSettings s t
  held : ∀ l, t.held l ⊆ s.held l
  stalled : ∀ i, t.stalled = some i → s.stalled = some i
  steady : Parked s → Steady s t

/-- What no setting is made of may be anything. -/
theorem sameSettings_rest (s : State) (domains slots handing table order stage issueTurn returnTurn forward lists
    openList stalled budget prompts notices claims switches events phase result popLeft sent) :
    SameSettings s
      { s with
        domains := domains, slots := slots, nextHanding := handing, table := table, nextOrder := order, stage := stage
        issueTurn := issueTurn, returnTurn := returnTurn, forward := forward, domainLists := lists
        openList := openList, stalled := stalled, holdBudget := budget, prompts := prompts, notices := notices
        claims := claims, switches := switches, events := events, sent := sent
        port := ⟨phase, s.port.aborted, result, popLeft⟩ } :=
  ⟨rfl, rfl, rfl, rfl, rfl, rfl, fun _ => ⟨rfl, rfl⟩, rfl, rfl⟩

theorem SameSettings.refl (s : State) : SameSettings s s := sameSettings_rest ..

theorem SameSettings.trans {s t u : State} (h : SameSettings s t) (h' : SameSettings t u) : SameSettings s u where
  pending := h'.pending.trans h.pending
  inReset := h'.inReset.trans h.inReset
  timebase := h'.timebase.trans h.timebase
  mode := h'.mode.trans h.mode
  windows := h'.windows.trans h.windows
  control := h'.control.trans h.control
  quotas n := ⟨(h'.quotas n).1.trans (h.quotas n).1, (h'.quotas n).2.trans (h.quotas n).2⟩
  aborted := h'.aborted.trans h.aborted
  portReset := h'.portReset.trans h.portReset

theorem Steady.refl (s : State) : Steady s s := ⟨fun _ => rfl, fun _ => rfl⟩

theorem Steady.trans {s t u : State} (h : Steady s t) (h' : Steady t u) : Steady s u :=
  ⟨fun i => (h'.entry i).trans (h.entry i), fun d => (h'.inFlight d).trans (h.inFlight d)⟩

/-- A live entry of the later state stands for one of the earlier state that is counted alike. -/
theorem Steady.exists_entry {s t : State} (h : Steady s t) {i : EntryIdx} {e : Entry} (he : t.entry i = some e) :
    ∃ f, s.entry i = some f ∧ f.inFlight = e.inFlight ∧ f.counted = e.counted ∧ f.domain? = e.domain? := by
  have hi := h.entry i
  rw [he, Option.map_some, eq_comm, Option.map_eq_some_iff] at hi
  obtain ⟨f, hf, heq⟩ := hi
  simp only [Entry.traffic, Prod.mk.injEq] at heq
  exact ⟨f, hf, heq⟩

theorem Steady.parked {s t : State} (h : Steady s t) (hheld : ∀ l, t.held l ⊆ s.held l)
    (hstalled : ∀ i, t.stalled = some i → s.stalled = some i) (hs : Parked s) : Parked t := by
  refine ⟨fun l i hi e he => ?_, fun i hi e he => ?_⟩
  · obtain ⟨f, hf, heq, _⟩ := h.exists_entry he
    exact heq ▸ hs.held l i (hheld l hi) f hf
  · obtain ⟨f, hf, heq, _⟩ := h.exists_entry he
    exact heq ▸ hs.stalled i (hstalled i hi) f hf

theorem Undisturbed.refl (s : State) : Undisturbed s s :=
  ⟨.refl s, fun _ => List.Subset.refl _, fun _ h => h, fun _ => .refl s⟩

theorem Undisturbed.trans {s t u : State} (h : Undisturbed s t) (h' : Undisturbed t u) : Undisturbed s u where
  settings := h.settings.trans h'.settings
  held l := List.Subset.trans (h'.held l) (h.held l)
  stalled i hi := h.stalled i (h'.stalled i hi)
  steady hs := (h.steady hs).trans (h'.steady ((h.steady hs).parked h.held h.stalled hs))

/-- What neither a setting nor the counting of traffic is made of may be anything. -/
theorem undisturbed_rest (s : State) (slots handing order stage issueTurn returnTurn forward budget prompts notices claims
    switches events phase result popLeft sent) :
    Undisturbed s
      { s with
        slots := slots, nextHanding := handing, nextOrder := order, stage := stage, issueTurn := issueTurn
        returnTurn := returnTurn, forward := forward, holdBudget := budget, prompts := prompts, notices := notices
        claims := claims, switches := switches, events := events, sent := sent
        port := ⟨phase, s.port.aborted, result, popLeft⟩ } :=
  ⟨sameSettings_rest .., fun l => by cases l <;> exact List.Subset.refl _, fun _ hi => hi, fun _ =>
    ⟨fun _ => rfl, fun _ => rfl⟩⟩

/-! ## Operations -/

theorem undisturbed_offer (e : Event) (s : State) : Undisturbed s (offer e s) := by
  rw [offer_eq]
  exact undisturbed_rest ..

theorem undisturbed_reply (status : Status) (bytes : List Byte) (s : State) : Undisturbed s (reply status bytes s) :=
  undisturbed_rest ..

theorem undisturbed_answered (bytes : List Byte) (s : State) : Undisturbed s (answered bytes s) :=
  undisturbed_rest ..

theorem undisturbed_setSlot (d : DomainId) (c : Slot) (s : State) : Undisturbed s (s.setSlot d c) :=
  undisturbed_rest ..

theorem undisturbed_handed (d : DomainId) (k : PowerCommand) (s : State) : Undisturbed s (handed d k s) :=
  undisturbed_rest ..

theorem undisturbed_prompt (s : State) : Undisturbed s (prompt s) := by
  rw [prompt_eq]
  exact undisturbed_rest ..

/-- A domain record is replaced by one with the same in-flight count. -/
theorem undisturbed_setDom {d : DomainId} {s : State} {y : Domain} (h : y.inFlight = (s.dom d).inFlight) :
    Undisturbed s (s.setDom d y) := by
  refine ⟨sameSettings_rest .., fun l => ?_, fun _ hi => hi, fun _ =>
    ⟨fun _ => rfl, fun c => ?_⟩⟩
  · rw [State.setDom_held]
    exact List.Subset.refl _
  · rw [State.dom_setDom]
    split
    · next hc => rw [h, hc]
    · rfl

theorem undisturbed_of_setDom {d : DomainId} {s t : State} {y : Domain} (h : Undisturbed (s.setDom d y) t)
    (hy : y.inFlight = (s.dom d).inFlight) : Undisturbed s t :=
  (undisturbed_setDom hy).trans h

theorem undisturbed_ite {p : Prop} [Decidable p] {s t : State} (h : p → Undisturbed s t) :
    Undisturbed s (if p then t else s) := by
  split
  · exact h ‹_›
  · exact .refl s

theorem undisturbed_whileRunning {s t u : State} (hu : Undisturbed s u) (h : whileRunning s u = .next t) :
    Undisturbed s t := by
  obtain rfl := Host.Outcome.next.inj h
  split
  · exact .refl s
  · exact hu

theorem undisturbed_inFrame {c : Option Command} {s t u : State} (hu : Undisturbed s u)
    (h : inFrame c s u = .next t) : Undisturbed s t := by
  obtain rfl := Host.Outcome.next.inj h
  exact undisturbed_ite fun _ => hu

theorem undisturbed_next {s t u : State} (hu : Undisturbed s u)
    (h : (.next u : Host.Outcome State Fault Refusal) = .next t) : Undisturbed s t :=
  Host.Outcome.next.inj h ▸ hu

/-! ## Declines -/

theorem Entry.traffic_declined {e : Entry} (h : e.inFlight = false) (c : DeclineCode) :
    (e.declined c).traffic = e.traffic := by
  rw [Entry.traffic, Entry.traffic, h]
  rfl

/-- An operation that declines one entry, which is not in flight, and leaves the domains. -/
theorem steady_of_declined {c : DeclineCode} {i : EntryIdx} {s t : State} (hd : t.domains = s.domains)
    (ht : ∀ j, t.entry j = if j = i then (s.entry i).map (Entry.declined c) else s.entry j)
    (hi : ∀ e ∈ s.entry i, e.inFlight = false) : Steady s t := by
  refine ⟨fun j => ?_, fun d => by simp only [State.dom, hd]⟩
  rw [ht]
  split
  · next hj =>
    subst hj
    cases he : s.entry j with
    | none => rfl
    | some e => simp only [Option.map_some, Entry.traffic_declined (hi e he)]
  · rfl

theorem steady_declineHeld {c : DeclineCode} {i : EntryIdx} {s : State} (hi : ∀ e ∈ s.entry i, e.inFlight = false) :
    Steady s (declineHeld c s i) :=
  steady_of_declined (beside_declineHeld c s i).domains (declineHeld_entry c s i) hi

theorem steady_declineStalled {c : DeclineCode} {i : EntryIdx} {s : State}
    (hi : ∀ e ∈ s.entry i, e.inFlight = false) : Steady s (declineStalled c s i) :=
  steady_of_declined (beside_declineStalled c s i).domains (declineStalled_entry c s i) hi

theorem steady_foldl {f : State → EntryIdx → State}
    (hf : ∀ s i, (∀ e ∈ s.entry i, e.inFlight = false) → Steady s (f s i)) {l : List EntryIdx} {s : State}
    (hl : ∀ i ∈ l, ∀ e ∈ s.entry i, e.inFlight = false) : Steady s (l.foldl f s) := by
  induction l generalizing s with
  | nil => exact .refl s
  | cons i l ih =>
    have hhead := hf s i (hl i List.mem_cons_self)
    refine hhead.trans (ih fun j hj e he => ?_)
    obtain ⟨e', he', heq, _⟩ := hhead.exists_entry he
    exact heq ▸ hl j (List.mem_cons_of_mem i hj) e' he'

theorem steady_massDecline (d : DomainId) (sel selStalled : Entry → Bool) (c : DeclineCode) {s : State}
    (hs : Parked s) : Steady s (massDecline d sel selStalled c s) := by
  have hheld : Steady s ((selectedHeld d sel s).foldl (declineHeld c) s) :=
    steady_foldl (fun _ _ => steady_declineHeld) fun i hi => hs.held _ i (List.mem_filter.mp hi).1
  have hstalled : Steady ((selectedHeld d sel s).foldl (declineHeld c) s)
      ((selectedStalled d selStalled s).foldl (declineStalled c) ((selectedHeld d sel s).foldl (declineHeld c) s)) := by
    refine steady_foldl (fun _ _ => steady_declineStalled) fun i hi e he => ?_
    obtain ⟨f, hf, heq, _⟩ := hheld.exists_entry he
    rcases selectedStalled_cases d selStalled s with hnil | ⟨j, hj, hone⟩
    · simp [hnil] at hi
    · obtain rfl : i = j := by simpa [hone] using hi
      exact heq ▸ hs.stalled i hj f hf
  have hprompt : ∀ u : State, Steady u (prompt u) := fun u => by
    rw [prompt_eq]
    exact ⟨fun _ => rfl, fun _ => rfl⟩
  unfold massDecline
  dsimp only
  split
  · exact hheld.trans hstalled
  · exact (hheld.trans hstalled).trans (hprompt _)

theorem sameSettings_givePlace (n : InitiatorId) (s : State) : SameSettings s (givePlace n s) := by
  refine ⟨rfl, rfl, rfl, rfl, rfl, rfl, fun m => ?_, rfl, rfl⟩
  have hinit : (givePlace n s).init m = (s.setInit n { s.init n with heldCount := (s.init n).heldCount - 1 }).init m := rfl
  rw [hinit, State.init_setInit]
  split
  · next hm => subst hm; exact ⟨rfl, rfl⟩
  · exact ⟨rfl, rfl⟩

theorem sameSettings_decline (i : EntryIdx) (c : DeclineCode) (s : State) : SameSettings s (decline i c s) := by
  obtain ⟨_, _, h⟩ := decline_frame i c s
  rw [h]
  exact sameSettings_rest ..

theorem sameSettings_declineHeld (c : DeclineCode) (s : State) (i : EntryIdx) : SameSettings s (declineHeld c s i) := by
  have hleave : SameSettings s (leaveLists i s) := sameSettings_rest ..
  unfold declineHeld
  split
  · exact (hleave.trans (sameSettings_givePlace _ _)).trans (sameSettings_decline i c _)
  · exact hleave

theorem sameSettings_declineStalled (c : DeclineCode) (s : State) (i : EntryIdx) :
    SameSettings s (declineStalled c s i) := by
  have hleave : SameSettings s (leaveStall s) := sameSettings_rest ..
  unfold declineStalled
  split
  · exact (hleave.trans (sameSettings_givePlace _ _)).trans (sameSettings_decline i c _)
  · exact hleave

theorem sameSettings_foldl {f : State → EntryIdx → State} (hf : ∀ s i, SameSettings s (f s i)) (l : List EntryIdx)
    (s : State) : SameSettings s (l.foldl f s) := by
  induction l generalizing s with
  | nil => exact .refl s
  | cons i l ih => exact (hf s i).trans (ih (f s i))

theorem undisturbed_massDecline (d : DomainId) (sel selStalled : Entry → Bool) (c : DeclineCode) (s : State) :
    Undisturbed s (massDecline d sel selStalled c s) := by
  refine ⟨?_, fun l => ?_, fun i hi => ?_, steady_massDecline d sel selStalled c⟩
  · have key := (sameSettings_foldl (sameSettings_declineHeld c) (selectedHeld d sel s) s).trans
      (sameSettings_foldl (sameSettings_declineStalled c) (selectedStalled d selStalled s) _)
    unfold massDecline
    dsimp only
    split
    · exact key
    · exact key.trans (undisturbed_prompt _).settings
  · rw [massDecline_held]
    exact List.filter_subset_self _
  · rcases selectedStalled_cases d selStalled s with hnil | ⟨j, -, hone⟩
    · rwa [(massDecline_of_unselected hnil sel c).1] at hi
    · rw [(massDecline_of_selected hone sel c).1] at hi
      cases hi

/-! ## Moves of the domain state machine -/

section Domains

variable (d : DomainId) (s : State)

theorem undisturbed_enterActive : Undisturbed s (enterActive d s) := by
  rw [enterActive_eq]
  refine undisturbed_of_setDom (y := (active d s).dom d) ?_ (by rw [active_dom])
  rw [active_dom]
  exact undisturbed_rest ..

theorem undisturbed_active : Undisturbed s (active d s) := enterActive_eq d s ▸ undisturbed_enterActive d s

theorem undisturbed_waking : Undisturbed s (waking d s) :=
  undisturbed_of_setDom (undisturbed_handed d .raise _) rfl

theorem undisturbed_lowering (l : Level) : Undisturbed s (lowering d l s) :=
  undisturbed_of_setDom (undisturbed_handed d (.lower l) _) rfl

theorem undisturbed_raised : Undisturbed s (raised d s) := by
  unfold raised
  cases (s.dom d).state
  case active => exact undisturbed_setDom rfl
  case draining => exact undisturbed_active d s
  case entering => exact undisturbed_setDom rfl
  case low => exact undisturbed_waking d s
  case exiting => exact .refl s
  case fault => exact .refl s

theorem undisturbed_drained : Undisturbed s (drained d s) :=
  undisturbed_ite fun _ => undisturbed_lowering d s _

theorem undisturbed_enterDraining (l : Level) : Undisturbed s (enterDraining d l s) := undisturbed_setDom rfl

theorem undisturbed_actionReply (n : Nat) : Undisturbed s (actionReply d n s) := undisturbed_reply _ _ s

theorem undisturbed_actOnNotice (n : Notice) : Undisturbed s (actOnNotice n s) := by
  rw [actOnNotice_eq]
  cases (s.dom n.domain).state
  case active => exact undisturbed_ite fun _ => undisturbed_setDom rfl
  case draining => exact undisturbed_ite fun _ => undisturbed_active _ s
  case entering => exact undisturbed_ite fun _ => undisturbed_setDom rfl
  case low => exact undisturbed_ite fun _ => undisturbed_waking _ s
  case exiting => exact .refl s
  case fault => exact .refl s

theorem undisturbed_takeKeep : Undisturbed s (takeKeep d s) := by
  rw [takeKeep_eq]
  cases (s.dom d).state
  case active => exact undisturbed_setDom rfl
  case draining => exact undisturbed_active d s
  all_goals exact .refl s

theorem undisturbed_takeRaiseClaim (c : Claim) : Undisturbed s (takeRaiseClaim c s) := by
  rw [takeRaiseClaim_eq]
  split
  · exact undisturbed_offer _ s
  split
  · exact .refl s
  split
  · exact undisturbed_offer _ s
  · exact undisturbed_raised _ s

theorem undisturbed_takeRaise : Undisturbed s (takeRaise d s) := by
  rw [takeRaise_eq]
  split
  · exact undisturbed_answered _ s
  · exact (undisturbed_raised d s).trans (undisturbed_answered _ _)

theorem undisturbed_takeLower (l : Level) : Undisturbed s (takeLower d l s) := by
  have hno : ∀ status, Undisturbed s (actionRefused status s) := fun status => undisturbed_reply status [] s
  have hok : ∀ t, Undisturbed s t → Undisturbed s (actionReply d 0 t) := fun t ht => ht.trans (undisturbed_actionReply d t 0)
  cases h : (s.dom d).state
  case active =>
    rw [takeLower_active h]
    split
    · exact hno .busy
    split
    · exact hno .badValue
    split
    · exact hok _ (undisturbed_lowering d s l)
    · exact hok _ (undisturbed_setDom rfl)
  case draining =>
    simp only [takeLower, h]
    split
    · exact hno .busy
    split
    · exact hno .badValue
    · exact hok _ (undisturbed_setDom rfl)
  case low =>
    rw [takeLower_low h]
    split
    · split
      · exact hno .busy
      · exact hok _ (.refl s)
    split
    · split
      · exact hno .busy
      · exact hok _ (.refl s)
    split
    · exact hno .busy
    split
    · exact hno .badValue
    · exact hok _ (undisturbed_lowering d s .off)
  all_goals
    simp only [takeLower, h]
    exact hno .busy

theorem undisturbed_loadDeep : Undisturbed s (loadDeep d s) := undisturbed_setDom rfl

theorem undisturbed_takeAssumption (a : Assumption) : Undisturbed s (takeAssumption d a s) := by
  cases a with
  | active => exact undisturbed_enterActive d s
  | lowRetain => exact undisturbed_of_setDom (undisturbed_loadDeep d _) rfl
  | lowOff => exact undisturbed_setDom rfl

theorem undisturbed_takeFlush : Undisturbed s (takeFlush d s) := by
  unfold takeFlush
  rw [completeDrain_eq]
  exact ((undisturbed_massDecline ..).trans (undisturbed_drained d _)).trans (undisturbed_actionReply d _ _)

theorem undisturbed_applyLimits : Undisturbed s (applyLimits d s) := by
  unfold applyLimits
  dsimp only
  split
  · exact undisturbed_setDom rfl
  · exact undisturbed_ite fun _ => undisturbed_loadDeep d s
  · exact undisturbed_ite fun _ => undisturbed_setDom rfl
  · exact .refl s

theorem undisturbed_applyPin : Undisturbed s (applyPin d s) := by
  unfold applyPin
  dsimp only
  split
  · exact .refl s
  · split
    · exact undisturbed_enterActive d s
    · exact undisturbed_setDom rfl
    · exact undisturbed_waking d s
    · exact .refl s
  · split
    · exact undisturbed_setDom rfl
    · exact undisturbed_setDom rfl
    · exact undisturbed_ite fun _ => undisturbed_lowering d s _
    · exact .refl s

theorem undisturbed_takeConfig (c : DomainConfig) : Undisturbed s (takeConfig d c s) := by
  have hstore : Undisturbed s (storeConfig d c s) := undisturbed_setDom rfl
  unfold takeConfig
  dsimp only
  split
  · exact (hstore.trans (undisturbed_applyLimits d _)).trans (undisturbed_applyPin d _)
  · exact hstore

theorem undisturbed_takeSwitch : Undisturbed s (takeSwitch d s) := by
  rw [takeSwitch_eq]
  refine undisturbed_ite fun _ => ?_
  split
  · split
    · exact undisturbed_lowering d s _
    · exact undisturbed_setDom rfl
  · exact undisturbed_setDom rfl

theorem undisturbed_abandonCommand : Undisturbed s (abandonCommand d s) :=
  (undisturbed_setSlot d .empty s).trans
    (undisturbed_of_setDom ((undisturbed_massDecline ..).trans (undisturbed_offer _ _)) rfl)

theorem undisturbed_loseContents : Undisturbed s (loseContents d s) :=
  undisturbed_of_setDom (undisturbed_massDecline ..) rfl

theorem undisturbed_doneLower : Undisturbed s (doneLower d s) := by
  have hlow : Undisturbed s (s.setDom d
      { s.dom d with state := .low, idleTimer := none, deepTimer := none, ackTimer := none, wakePending := false }) :=
    undisturbed_setDom rfl
  have hreport := hlow.trans
    (undisturbed_offer { record s .domainLow with domain := some d, detail := (s.dom d).level.value.setWidth 16 } _)
  unfold doneLower
  dsimp only
  generalize offer _ _ = u at hreport
  have hlost : Undisturbed s (if (s.dom d).level = .off then loseContents d u else u) := by
    split
    · exact hreport.trans (undisturbed_loseContents d u)
    · exact hreport
  split
  · exact hlost.trans (undisturbed_waking d _)
  · exact hlost.trans (undisturbed_loadDeep d _)

theorem undisturbed_refusedRaise : Undisturbed s (refusedRaise d s) :=
  undisturbed_of_setDom
    (((undisturbed_massDecline ..).trans (undisturbed_offer _ _)).trans (undisturbed_loadDeep d _)) rfl

theorem undisturbed_deliver (o : AckOutcome) (k : PowerCommand) : Undisturbed s (deliver o k d s) := by
  have hup := undisturbed_enterActive d s
  cases k <;> cases o
  · exact undisturbed_doneLower d s
  · exact hup.trans (undisturbed_offer _ _)
  · exact hup.trans (undisturbed_offer _ _)
  · exact undisturbed_refusedRaise d s

end Domains

end Sys2Proof.Machine
end

section
/-! The commands that neither set a setting nor move traffic, and the settings under every command (R34, R86, R143, R153,
R158, R163). -/

namespace Sys2Proof.Proofs

-- One proof after another: the memory of a compile grows with the proofs that run at once.
set_option Elab.async false

open Sys2Proof.Machine Sys2Proof.Claims

/-! ## Commands that leave both alone -/

/-- The commands that move requests and responses: they alone take, hold, count and free entries. -/
def movesTraffic : Instr → Bool
  | .acceptance _ => true
  | .issue => true
  | .downstreamResponse _ => true
  | .forwarding => true
  | .declineSend => true
  | .reExamination => true
  | .holdDeadlineExpiry _ => true
  | .stallDeadlineExpiry => true
  | .portReset => true
  | _ => false

/-- The commands that have a setting of their own, and the two edges of RESETN. -/
def setsSetting : Instr → Bool
  | .timebaseAdvance => true
  | .setMode _ => true
  | .writeWindow _ _ => true
  | .setEventControl _ _ _ => true
  | .writeInitiator _ _ _ => true
  | .frameAbort _ => true
  | .readStatus => true
  | .portReset => true
  | .portResetRelease => true
  | .powerOnReset => true
  | .powerOnResetRelease => true
  | _ => false

theorem undisturbed_execCommandTransfer {s t : State} (h : execCommandTransfer s = .next t) : Undisturbed s t := by
  refine undisturbed_whileRunning ?_ h
  split
  · split
    · exact (undisturbed_setSlot _ _ s).trans (undisturbed_rest ..)
    · exact .refl s
  · exact .refl s

theorem undisturbed_execAcknowledge {o : AckOutcome} {d : DomainId} {s t : State}
    (h : execAcknowledge o d s = .next t) : Undisturbed s t := by
  refine undisturbed_whileRunning ?_ h
  split
  · exact (undisturbed_setSlot d .empty s).trans (undisturbed_deliver d _ o _)
  · exact undisturbed_offer _ s
  · exact undisturbed_offer _ s

theorem undisturbed_dropClaim (a : SteeringAction) (d : DomainId) (s : State) : Undisturbed s (s.dropClaim a d) :=
  undisturbed_rest ..

theorem undisturbed_execKeepClaim {d : DomainId} {s t : State} (h : execKeepClaim d s = .next t) :
    Undisturbed s t := by
  refine undisturbed_whileRunning ?_ h
  split
  · split
    · exact (undisturbed_dropClaim .keep d s).trans (undisturbed_takeKeep d _)
    · exact undisturbed_dropClaim .keep d s
  · exact .refl s

theorem undisturbed_execRaiseClaim {d : DomainId} {s t : State} (h : execRaiseClaim d s = .next t) :
    Undisturbed s t := by
  refine undisturbed_whileRunning ?_ h
  split
  · split
    · exact (undisturbed_dropClaim .raise d s).trans (undisturbed_takeRaiseClaim _ _)
    · exact undisturbed_dropClaim .raise d s
  · exact .refl s

theorem undisturbed_execArrivalNotice {d : DomainId} {s t : State} (h : execArrivalNotice d s = .next t) :
    Undisturbed s t := by
  refine undisturbed_whileRunning ?_ h
  split
  · have hdrop : Undisturbed s (withoutNotice s d) :=
      undisturbed_rest ..
    exact hdrop.trans (undisturbed_actOnNotice _ _)
  · exact .refl s

theorem undisturbed_execGoverningSwitchTaken {d : DomainId} {s t : State}
    (h : execGoverningSwitchTaken d s = .next t) : Undisturbed s t := by
  refine undisturbed_whileRunning (undisturbed_ite fun _ => ?_) h
  have hdrop : Undisturbed s { s with switches := s.switches.filter (fun c => c != d) } :=
    undisturbed_rest ..
  exact hdrop.trans (undisturbed_takeSwitch d _)

theorem undisturbed_execWriteDomain {b : Byte} {r : Vector Byte 8} {s t : State}
    (h : execWriteDomain b r s = .next t) : Undisturbed s t := by
  refine undisturbed_inFrame ?_ h
  split
  · split
    · split
      · exact undisturbed_reply _ _ s
      · exact (undisturbed_takeConfig _ s _).trans (undisturbed_reply _ _ _)
    · exact undisturbed_reply _ _ s
  · exact undisturbed_reply _ _ s

theorem undisturbed_execRaiseAction {b a x : Byte} {s t : State} (h : execRaiseAction b a x s = .next t) :
    Undisturbed s t := by
  refine undisturbed_inFrame ?_ h
  split
  · split
    · exact .refl s
    split
    · exact undisturbed_reply _ _ s
    split
    · exact undisturbed_reply _ _ s
    · exact undisturbed_takeRaise _ s
  · split
    · exact .refl s
    · exact undisturbed_reply _ _ s

theorem undisturbed_execLowerAction {b l : Byte} {s t : State} (h : execLowerAction b l s = .next t) :
    Undisturbed s t := by
  refine undisturbed_inFrame ?_ h
  split
  · split
    · split
      · exact undisturbed_reply _ _ s
      · exact undisturbed_takeLower _ s _
    · exact undisturbed_reply _ _ s
  · exact undisturbed_reply _ _ s

theorem undisturbed_execClearFault {b a : Byte} {s t : State} (h : execClearFault b a s = .next t) :
    Undisturbed s t := by
  refine undisturbed_inFrame ?_ h
  split
  · split
    · split
      · exact undisturbed_reply _ _ s
      split
      · exact (undisturbed_takeAssumption _ s _).trans (undisturbed_actionReply _ _ _)
      · exact undisturbed_reply _ _ s
    · exact undisturbed_reply _ _ s
  · exact undisturbed_reply _ _ s

theorem undisturbed_execRecordRemoval {s t : State} (h : execRecordRemoval s = .next t) : Undisturbed s t := by
  refine undisturbed_next (undisturbed_ite fun _ => ?_) h
  split
  · exact undisturbed_rest ..
  · exact .refl s

/-- Every command that moves no traffic and has no setting of its own leaves both alone. -/
theorem exec_undisturbed {c : Instr} {s t : State} (h : exec c s = .next t) (hm : movesTraffic c = false)
    (hs : setsSetting c = false) : Undisturbed s t := by
  cases c with
  | arrivalNotice d => exact undisturbed_execArrivalNotice h
  | idleTimerExpiry d => exact undisturbed_whileRunning (undisturbed_ite fun _ => undisturbed_enterDraining d s _) h
  | drainCompletion d => exact undisturbed_whileRunning (completeDrain_eq d s ▸ undisturbed_drained d s) h
  | deepTimerExpiry d => exact undisturbed_whileRunning (undisturbed_ite fun _ => undisturbed_lowering d s _) h
  | ackTimerExpiry d => exact undisturbed_whileRunning (undisturbed_ite fun _ => undisturbed_abandonCommand d s) h
  | commandTransfer => exact undisturbed_execCommandTransfer h
  | acknowledge o d => exact undisturbed_execAcknowledge h
  | keepClaim d => exact undisturbed_execKeepClaim h
  | raiseClaim d => exact undisturbed_execRaiseClaim h
  | governingSwitchTaken d => exact undisturbed_execGoverningSwitchTaken h
  | readWindow w =>
    refine undisturbed_inFrame ?_ h
    split <;> exact undisturbed_reply _ _ s
  | readDomain d =>
    refine undisturbed_inFrame ?_ h
    split <;> exact undisturbed_reply _ _ s
  | writeDomain d r => exact undisturbed_execWriteDomain h
  | raiseAction d a x => exact undisturbed_execRaiseAction (x := x) h
  | lowerAction d l => exact undisturbed_execLowerAction h
  | clearFault d a => exact undisturbed_execClearFault h
  | validate d x =>
    refine undisturbed_inFrame ?_ h
    split
    · exact undisturbed_of_setDom (undisturbed_actionReply _ _ _) rfl
    · exact undisturbed_reply _ _ s
  | flush d x =>
    refine undisturbed_inFrame ?_ h
    split
    · exact undisturbed_takeFlush _ s
    · exact undisturbed_reply _ _ s
  | listHeld l =>
    refine undisturbed_inFrame ?_ h
    split <;> exact undisturbed_reply _ _ s
  | readInitiator n =>
    refine undisturbed_inFrame ?_ h
    split <;> exact undisturbed_reply _ _ s
  | popEvents k =>
    refine undisturbed_inFrame ?_ h
    split
    · exact undisturbed_reply _ _ s
    · exact undisturbed_rest ..
  | recordRemoval => exact undisturbed_execRecordRemoval h
  | badCommand code =>
    refine undisturbed_inFrame ?_ h
    split
    · rw [takeCode_eq]
      exact undisturbed_rest ..
    · exact undisturbed_reply _ _ s
  | frameEnd => exact undisturbed_next (undisturbed_ite fun _ => undisturbed_rest ..) h
  | chipSelectFalling => exact undisturbed_next (undisturbed_ite fun _ => undisturbed_rest ..) h
  | ignoringEnd => exact undisturbed_next (undisturbed_ite fun _ => undisturbed_rest ..) h
  | acceptance | issue | downstreamResponse | forwarding | declineSend | reExamination | holdDeadlineExpiry
  | stallDeadlineExpiry | portReset => cases hm
  | _ => cases hs

/-! ## The settings under a command that moves traffic -/

theorem sameSettings_whileRunning {s t u : State} (hu : SameSettings s u) (h : whileRunning s u = .next t) :
    SameSettings s t := by
  obtain rfl := Host.Outcome.next.inj h
  split
  · exact .refl s
  · exact hu

theorem sameSettings_setEntry (i : EntryIdx) (x : Option Entry) (s : State) : SameSettings s (s.setEntry i x) :=
  sameSettings_rest ..

theorem sameSettings_leaveStall (s : State) : SameSettings s (leaveStall s) :=
  sameSettings_rest ..

theorem sameSettings_countIn (i : EntryIdx) (s : State) : SameSettings s (countIn i s) := by
  obtain ⟨_, _, h⟩ := countIn_frame i s
  rw [h]
  exact sameSettings_rest ..

theorem sameSettings_freeEntry (i : EntryIdx) (s : State) : SameSettings s (freeEntry i s) := by
  obtain ⟨_, _, h⟩ := freeEntry_frame i s
  rw [h]
  exact sameSettings_rest ..

theorem sameSettings_takePlace (n : InitiatorId) (s : State) : SameSettings s (takePlace n s) := by
  refine ⟨rfl, rfl, rfl, rfl, rfl, rfl, fun m => ?_, rfl, rfl⟩
  have hinit : (takePlace n s).init m = (s.setInit n { s.init n with heldCount := (s.init n).heldCount + 1 }).init m := rfl
  rw [hinit, State.init_setInit]
  split
  · next hm => subst hm; exact ⟨rfl, rfl⟩
  · exact ⟨rfl, rfl⟩

theorem sameSettings_giveNotice (e : Entry) (wake : Bool) (s : State) : SameSettings s (giveNotice e wake s) := by
  rw [giveNotice_eq]
  exact sameSettings_rest ..

theorem sameSettings_joinList (i : EntryIdx) (e : Entry) (r : HoldReason) (s : State) :
    SameSettings s (joinList i e r s) := by
  obtain ⟨_, _, _, h⟩ := joinList_frame i e r s
  rw [h]
  exact sameSettings_rest ..

theorem sameSettings_passEntry (i : EntryIdx) (e : Entry) (s : State) : SameSettings s (passEntry i e s) := by
  obtain ⟨_, _, h⟩ := passEntry_frame i e s
  rw [h]
  exact sameSettings_rest ..

theorem sameSettings_holdNew (i : EntryIdx) (e : Entry) (r : HoldReason) (s : State) :
    SameSettings s (holdNew i e r s) := by
  unfold holdNew
  split
  · exact ((sameSettings_joinList i e r s).trans (sameSettings_takePlace _ _)).trans (sameSettings_giveNotice e _ _)
  · split
    · exact (sameSettings_setEntry i _ s).trans (sameSettings_decline i _ _)
    · have hset := (sameSettings_setEntry i (some { e with state := .stalled }) s).trans
        (sameSettings_takePlace e.initiator _)
      have hstall : ∀ u : State, SameSettings u { u with stalled := some i, prompts := 0 } := fun u =>
        sameSettings_rest ..
      exact (hset.trans (hstall _)).trans (undisturbed_offer _ _).settings

theorem sameSettings_placeNew (i : EntryIdx) (e : Entry) (x : Decision) (s : State) :
    SameSettings s (placeNew i e x s) := by
  cases x with
  | pass =>
    unfold placeNew
    dsimp only
    split
    · exact (sameSettings_passEntry i e s).trans (sameSettings_giveNotice e false _)
    · exact sameSettings_passEntry i e s
  | hold r => exact sameSettings_holdNew i e r s
  | decline c => exact (sameSettings_setEntry i _ s).trans (sameSettings_decline i c _)

theorem sameSettings_acceptAt (i : EntryIdx) (r : Request) (s : State) : SameSettings s (acceptAt i r s) := by
  have horder : SameSettings s { s with nextOrder := s.nextOrder + 1 } :=
    sameSettings_rest ..
  unfold acceptAt
  refine SameSettings.trans ?_ (sameSettings_placeNew ..)
  cases (decodeRequest s r).word with
  | none => exact horder
  | some w =>
    obtain ⟨_, _, h⟩ := takeSteeringWord_frame w r { s with nextOrder := s.nextOrder + 1 }
    dsimp only
    rw [h]
    exact sameSettings_rest ..

theorem sameSettings_reExamine (i : EntryIdx) (e : Entry) (s : State) : SameSettings s (reExamine i e s) := by
  have hleave := sameSettings_leaveStall s
  unfold reExamine
  split
  · exact ((hleave.trans (sameSettings_givePlace _ _)).trans (sameSettings_passEntry i e _)).trans
      (sameSettings_giveNotice e false _)
  · split
    · exact (hleave.trans (sameSettings_joinList i e _ _)).trans (sameSettings_giveNotice e _ _)
    · exact sameSettings_rest ..
  · exact sameSettings_declineStalled _ s i

theorem sameSettings_issueEntry (i : EntryIdx) (e : Entry) (s : State) : SameSettings s (issueEntry i e s) := by
  have hsent : ∀ (u : State) (x : Sent), SameSettings u { u with sent := x } := fun u x =>
    sameSettings_rest ..
  exact ((sameSettings_setEntry i _ s).trans (sameSettings_countIn i _)).trans (hsent _ _)

theorem sameSettings_issuePassing (i : EntryIdx) (e : Entry) (s : State) : SameSettings s (issuePassing i e s) := by
  have hturn : ∀ u : State, SameSettings u { u with stage := none, issueTurn := .release } := fun u =>
    sameSettings_rest ..
  exact (sameSettings_issueEntry i e s).trans (hturn _)

theorem sameSettings_issueHeld (i : EntryIdx) (e : Entry) (s : State) : SameSettings s (issueHeld i e s) := by
  have hleave : SameSettings s (leaveLists i s) := sameSettings_rest ..
  have hturn : ∀ u : State, SameSettings u { u with issueTurn := .pass } := fun u =>
    sameSettings_rest ..
  exact (((hleave.trans (sameSettings_givePlace _ _)).trans (sameSettings_issueEntry i e _)).trans (hturn _)).trans
    (undisturbed_prompt _).settings

theorem sameSettings_matchResponse (r : MemResponse) (s : State) : SameSettings s (matchResponse r s) := by
  unfold matchResponse
  split
  · split
    · exact sameSettings_rest ..
    split
    · exact sameSettings_freeEntry _ s
    · exact (undisturbed_offer _ s).settings
  · exact (undisturbed_offer _ s).settings

theorem sameSettings_forwardEntry (i : EntryIdx) (e : Entry) (r : MemResponse) (s : State) :
    SameSettings s (forwardEntry i e r s) :=
  (sameSettings_freeEntry i s).trans (sameSettings_rest ..)

theorem sameSettings_sendDecline (i : EntryIdx) (e : Entry) (c : DeclineCode) (s : State) :
    SameSettings s (sendDecline i e c s) :=
  (sameSettings_freeEntry i s).trans (sameSettings_rest ..)

/-- Every command that moves traffic but PORT_RESET leaves the settings. -/
theorem exec_sameSettings_of_movesTraffic {c : Instr} {s t : State} (h : exec c s = .next t)
    (hm : movesTraffic c = true) (hp : c ≠ .portReset) : SameSettings s t := by
  cases c with
  | acceptance r =>
    refine sameSettings_whileRunning ?_ h
    split
    · split
      · exact sameSettings_acceptAt _ r s
      · exact .refl s
    · exact .refl s
  | issue =>
    refine sameSettings_whileRunning ?_ h
    split
    · split
      · split
        · exact sameSettings_issuePassing _ _ s
        · exact sameSettings_issueHeld _ _ s
      · exact .refl s
    · exact .refl s
  | downstreamResponse r =>
    refine sameSettings_whileRunning ?_ h
    split
    · exact .refl s
    · exact sameSettings_matchResponse r s
  | forwarding =>
    refine sameSettings_whileRunning ?_ h
    split
    · split
      · split
        · exact sameSettings_forwardEntry _ _ _ s
        · exact .refl s
      · exact .refl s
    · exact .refl s
  | declineSend =>
    refine sameSettings_whileRunning ?_ h
    split
    · split
      · split
        · split
          · exact sameSettings_sendDecline _ _ _ s
          · exact .refl s
        · exact .refl s
      · exact .refl s
    · exact .refl s
  | reExamination =>
    refine sameSettings_whileRunning ?_ h
    split
    · split
      · split
        · exact sameSettings_reExamine _ _ s
        · exact .refl s
      · exact .refl s
    · exact .refl s
  | holdDeadlineExpiry i =>
    refine sameSettings_whileRunning ?_ h
    split
    · split
      · exact (sameSettings_declineHeld _ s i).trans (undisturbed_prompt _).settings
      · exact .refl s
    · exact .refl s
  | stallDeadlineExpiry =>
    refine sameSettings_whileRunning ?_ h
    split
    · split
      · split
        · exact sameSettings_declineStalled _ s _
        · exact .refl s
      · exact .refl s
    · exact .refl s
  | portReset => exact absurd rfl hp
  | _ => cases hm

/-! ## The settings under the commands that own them -/

/-- The settings that the command does not own are as they were. -/
abbrev KeepsOthers (c : Instr) (s t : State) : Prop :=
  t.pending = s.pending ∧
  t.inReset = s.inReset ∧
  (c ≠ .timebaseAdvance → t.timebase = s.timebase) ∧
  ((∀ m, c ≠ .setMode m) → t.mode = s.mode) ∧
  ((∀ w r, c ≠ .writeWindow w r) → t.windows = s.windows) ∧
  ((∀ h l f, c ≠ .setEventControl h l f) → t.control = s.control) ∧
  ((∀ n q f, c ≠ .writeInitiator n q f) →
    ∀ n, (t.init n).quota = (s.init n).quota ∧ (t.init n).strict = (s.init n).strict) ∧
  ((∀ b, c ≠ .frameAbort b) → c ≠ .readStatus → t.port.aborted = s.port.aborted) ∧
  (c ≠ .portReset → c ≠ .portResetRelease → t.portReset = s.portReset)

theorem keepsOthers_of_same {s t : State} (h : SameSettings s t) (c : Instr) : KeepsOthers c s t :=
  ⟨h.pending, h.inReset, fun _ => h.timebase, fun _ => h.mode, fun _ => h.windows, fun _ => h.control, fun _ => h.quotas,
    fun _ _ => h.aborted, fun _ _ => h.portReset⟩

theorem keepsOthers_inFrame {k : Option Command} {c : Instr} {s t u : State} (hu : KeepsOthers c s u)
    (h : inFrame k s u = .next t) : KeepsOthers c s t := by
  obtain rfl := Host.Outcome.next.inj h
  split
  · exact hu
  · exact keepsOthers_of_same (.refl s) c

theorem KeepsOthers.trans_same {c : Instr} {s t u : State} (h : KeepsOthers c s t) (h' : SameSettings t u) :
    KeepsOthers c s u := by
  obtain ⟨hp, hr, ht, hm, hw, hc, hq, ha, hpr⟩ := h
  exact ⟨h'.pending.trans hp, h'.inReset.trans hr, fun hx => h'.timebase.trans (ht hx), fun hx => h'.mode.trans (hm hx),
    fun hx => h'.windows.trans (hw hx), fun hx => h'.control.trans (hc hx),
    fun hx n => ⟨(h'.quotas n).1.trans (hq hx n).1, (h'.quotas n).2.trans (hq hx n).2⟩,
    fun hx hy => h'.aborted.trans (ha hx hy), fun hx hy => h'.portReset.trans (hpr hx hy)⟩

theorem keepsOthers_setMode {b : Byte} {s t : State} (h : execSetMode b s = .next t) :
    KeepsOthers (.setMode b) s t := by
  have hno : ∀ status bytes, KeepsOthers (.setMode b) s (reply status bytes s) := fun status bytes =>
    keepsOthers_of_same (undisturbed_reply status bytes s).settings _
  have hset : ∀ u : State, KeepsOthers (.setMode b) s
      { s with mode := u.mode, switches := u.switches, domains := u.domains } := fun u =>
    ⟨rfl, rfl, fun _ => rfl, fun hm => absurd rfl (hm b), fun _ => rfl, fun _ => rfl, fun _ _ => ⟨rfl, rfl⟩,
      fun _ _ => rfl, fun _ _ => rfl⟩
  refine keepsOthers_inFrame ?_ h
  split
  · rename_i m _
    unfold takeMode
    split
    · exact hno _ _
    cases m with
    | governing => exact (hset (switchToGoverning s)).trans_same (undisturbed_reply _ _ _).settings
    | transparent =>
      dsimp only
      split
      · exact (hset (switchToTransparent s)).trans_same (undisturbed_reply _ _ _).settings
      · exact hno _ _
  · exact hno _ _

theorem keepsOthers_writeWindow {b : Byte} {r : Vector Byte 12} {s t : State} (h : execWriteWindow b r s = .next t) :
    KeepsOthers (.writeWindow b r) s t := by
  have hno : ∀ status, KeepsOthers (.writeWindow b r) s (reply status [] s) := fun status =>
    keepsOthers_of_same (undisturbed_reply status [] s).settings _
  refine keepsOthers_inFrame ?_ h
  split
  · split
    · exact ⟨rfl, rfl, fun _ => rfl, fun _ => rfl, fun hw => absurd rfl (hw b r), fun _ => rfl, fun _ _ => ⟨rfl, rfl⟩,
        fun _ _ => rfl, fun _ _ => rfl⟩
    · exact hno _
  · exact hno _

theorem keepsOthers_setEventControl {hi lo f : Byte} {s t : State} (h : execSetEventControl hi lo f s = .next t) :
    KeepsOthers (.setEventControl hi lo f) s t := by
  refine keepsOthers_inFrame ?_ h
  split
  · exact ⟨rfl, rfl, fun _ => rfl, fun _ => rfl, fun _ => rfl, fun hc => absurd rfl (hc hi lo f),
      fun _ _ => ⟨rfl, rfl⟩, fun _ _ => rfl, fun _ _ => rfl⟩
  · exact keepsOthers_of_same (undisturbed_reply _ _ s).settings _

theorem keepsOthers_writeInitiator {b q f : Byte} {s t : State} (h : execWriteInitiator b q f s = .next t) :
    KeepsOthers (.writeInitiator b q f) s t := by
  have hno : ∀ status, KeepsOthers (.writeInitiator b q f) s (reply status [] s) := fun status =>
    keepsOthers_of_same (undisturbed_reply status [] s).settings _
  refine keepsOthers_inFrame ?_ h
  split
  · rename_i n _
    split
    · exact hno _
    · have hset : KeepsOthers (.writeInitiator b q f) s
          (s.setInit n { s.init n with quota := q.toNat, strict := f.getLsbD 0 }) :=
        ⟨rfl, rfl, fun _ => rfl, fun _ => rfl, fun _ => rfl, fun _ => rfl, fun hq => absurd rfl (hq b q f),
          fun _ _ => rfl, fun _ _ => rfl⟩
      refine KeepsOthers.trans_same ?_ (undisturbed_reply _ _ _).settings
      unfold storeInitiator
      dsimp only
      split
      · exact hset.trans_same (undisturbed_prompt _).settings
      · exact hset
  · exact hno _

theorem keepsOthers_portReset {s t : State} (h : execPortReset s = .next t) : KeepsOthers .portReset s t := by
  obtain rfl := Host.Outcome.next.inj h
  split
  · exact keepsOthers_of_same (.refl s) _
  split
  · exact ⟨rfl, rfl, fun _ => rfl, fun _ => rfl, fun _ => rfl, fun _ => rfl, fun _ _ => ⟨rfl, rfl⟩, fun _ _ => rfl,
      fun hp => absurd rfl hp⟩
  · rw [resetPort_eq]
    have hinit := emptied_init s
    obtain ⟨_, _, _, _, hframe⟩ := emptied_frame s
    generalize emptied s = u at *
    subst hframe
    exact ⟨rfl, rfl, fun _ => rfl, fun _ => rfl, fun _ => rfl, fun _ => rfl,
      fun _ n => ⟨(congrArg Initiator.quota (hinit n) :), (congrArg Initiator.strict (hinit n) :)⟩, fun _ _ => rfl,
      fun hp => absurd rfl hp⟩

/-- Settles O2: by the commands that own a setting, those that move traffic, and all others. -/
theorem onlyTheirCommandsChangeSettings : Obligations.OnlyTheirCommandsChangeSettings := by
  intro c s t h hon hoff
  change KeepsOthers c s t
  cases hm : movesTraffic c
  case true =>
    by_cases hp : c = .portReset
    · subst hp; exact keepsOthers_portReset h
    · exact keepsOthers_of_same (exec_sameSettings_of_movesTraffic h hm hp) c
  cases hs : setsSetting c
  case false => exact keepsOthers_of_same (exec_undisturbed h hm hs).settings c
  cases c with
  | timebaseAdvance =>
    obtain rfl := Host.Outcome.next.inj h
    split
    · exact keepsOthers_of_same (.refl s) _
    · exact ⟨rfl, rfl, fun ht => absurd rfl ht, fun _ => rfl, fun _ => rfl, fun _ => rfl, fun _ _ => ⟨rfl, rfl⟩,
        fun _ _ => rfl, fun _ _ => rfl⟩
  | setMode b => exact keepsOthers_setMode h
  | writeWindow b r => exact keepsOthers_writeWindow h
  | setEventControl hi lo f => exact keepsOthers_setEventControl h
  | writeInitiator b q f => exact keepsOthers_writeInitiator h
  | frameAbort bits =>
    obtain rfl := Host.Outcome.next.inj h
    split
    · exact ⟨rfl, rfl, fun _ => rfl, fun _ => rfl, fun _ => rfl, fun _ => rfl, fun _ _ => ⟨rfl, rfl⟩,
        fun ha => absurd rfl (ha bits), fun _ _ => rfl⟩
    · exact keepsOthers_of_same (.refl s) _
  | readStatus =>
    refine keepsOthers_inFrame ?_ h
    exact ⟨rfl, rfl, fun _ => rfl, fun _ => rfl, fun _ => rfl, fun _ => rfl, fun _ _ => ⟨rfl, rfl⟩,
      fun _ ha => absurd rfl ha, fun _ _ => rfl⟩
  | portResetRelease =>
    obtain rfl := Host.Outcome.next.inj h
    exact ⟨rfl, rfl, fun _ => rfl, fun _ => rfl, fun _ => rfl, fun _ => rfl, fun _ _ => ⟨rfl, rfl⟩, fun _ _ => rfl,
      fun _ hp => absurd rfl hp⟩
  | powerOnReset => exact absurd rfl hon
  | powerOnResetRelease => exact absurd rfl hoff
  | portReset => cases hm
  | _ => cases hs

end Sys2Proof.Proofs
end

section
/-! The law of the in-flight counts (R50, R57, R70): every in-flight count is the number of the entries counted in the domain,
an entry is counted exactly while it is in flight, and no entry is counted in a domain that is not up. -/

namespace Sys2Proof.Proofs

-- One proof after another: the memory of a compile grows with the proofs that run at once.
set_option Elab.async false

open Sys2Proof.Machine Sys2Proof.Claims

/-! ## Counting the entries after one has changed -/

theorem countP_replace {α : Type} [DecidableEq α] {l : List α} (hl : l.Nodup) {a : α} (ha : a ∈ l) {p q : α → Bool}
    (h : ∀ b, b ≠ a → p b = q b) : l.countP p + (q a).toNat = l.countP q + (p a).toNat := by
  have hrest : (l.erase a).countP p = (l.erase a).countP q :=
    List.countP_congr fun b hb => by rw [h b ((hl.mem_erase_iff.mp hb).1)]
  rw [(List.perm_cons_erase ha).countP_eq p, (List.perm_cons_erase ha).countP_eq q, List.countP_cons,
    List.countP_cons, hrest]
  cases p a <;> cases q a <;> simp

theorem countEntries_replace {s t : State} {i : EntryIdx} {x : Option Entry}
    (h : ∀ j, t.entry j = if j = i then x else s.entry j) (p : Entry → Bool) :
    t.countEntries p + ((s.entry i).any p).toNat = s.countEntries p + (x.any p).toNat := by
  have hx : (t.entry i).any p = x.any p := by rw [h, if_pos rfl]
  rw [← hx]
  refine countP_replace (p := fun j => (t.entry j).any p) (q := fun j => (s.entry j).any p) allEntries_nodup
    (List.mem_finRange i) fun j hj => ?_
  rw [h, if_neg hj]

/-! ## The law by its two halves -/

/-- The entry is counted exactly while it is in flight and has a domain (R50, R57). -/
def Marked (e : Entry) : Prop :=
  e.counted = (e.inFlight && e.domain?.isSome)

/-- The entry is counted in the domain. -/
def countedFor (d : DomainId) (e : Entry) : Bool :=
  e.counted && e.domain? == some d

/-- Every in-flight count is the number of the entries that are counted in the domain (R6). -/
def Balanced (s : State) : Prop :=
  ∀ d, (s.dom d).inFlight = s.countEntries (countedFor d)

theorem countsKept_iff (s : State) :
    CountsKept s ↔ (∀ i e, s.entry i = some e → Marked e) ∧ Balanced s := by
  refine and_congr_right fun hm => forall_congr' fun d => ?_
  have hcount : s.countEntries (fun e => e.inFlight && e.domain? == some d) = s.countEntries (countedFor d) := by
    refine List.countP_congr fun i _ => ?_
    cases he : s.entry i with
    | none => rfl
    | some e =>
      have hc : e.counted = (e.inFlight && e.domain?.isSome) := hm i e he
      rw [Option.any_some, Option.any_some, countedFor, hc]
      cases e.domain? <;> simp
  rw [hcount]

theorem Marked.counted_eq_false {e : Entry} (h : Marked e) (hn : e.inFlight = false) : e.counted = false := by
  rw [h, hn, Bool.false_and]

theorem countedFor_eq_false {e : Entry} (h : e.counted = false) (d : DomainId) : countedFor d e = false := by
  rw [countedFor, h, Bool.false_and]

theorem marked_replace {s t : State} {i : EntryIdx} {x : Option Entry}
    (h : ∀ j, t.entry j = if j = i then x else s.entry j) (hs : ∀ i e, s.entry i = some e → Marked e)
    (hx : ∀ e ∈ x, Marked e) : ∀ j e, t.entry j = some e → Marked e := by
  intro j e he
  rw [h] at he
  split at he
  · exact hx e he
  · exact hs j e he

theorem countsKept_of_steady {s t : State} (h : Steady s t) (hs : CountsKept s) : CountsKept t := by
  obtain ⟨hmark, hcount⟩ := hs
  refine ⟨fun i e he => ?_, fun d => ?_⟩
  · obtain ⟨f, hf, hn, hc, hd⟩ := h.exists_entry he
    rw [← hn, ← hc, ← hd]
    exact hmark i f hf
  · rw [h.inFlight, hcount]
    refine List.countP_congr fun i _ => ?_
    have key := congrArg (Option.any fun x : Bool × Bool × Option DomainId => x.1 && x.2.2 == some d) (h.entry i)
    rw [Option.any_map, Option.any_map] at key
    exact (congrArg (· = true) key.symm).to_iff

/-! ## Operations that move traffic -/

theorem balanced_setEntry {s : State} {i : EntryIdx} {x : Option Entry} (hs : Balanced s)
    (hx : ∀ d, x.any (countedFor d) = (s.entry i).any (countedFor d)) : Balanced (s.setEntry i x) := by
  intro d
  have h := countEntries_replace (fun j => State.entry_setEntry s j i x) (countedFor d)
  rw [hx] at h
  have heq := Nat.add_right_cancel h
  rw [heq]
  exact hs d

theorem balanced_countIn (i : EntryIdx) {s : State} (hs : Balanced s) : Balanced (countIn i s) := by
  intro d
  have h := countEntries_replace (countIn_entry i · s) (countedFor d)
  have hd := hs d
  rw [countIn_dom]
  cases he : s.entry i with
  | none => simp_all
  | some e =>
    have hdom : Entry.domain? e.countedIn = e.domain? := rfl
    cases hc : e.counted <;> cases heq : e.domain? == some d <;>
      simp_all [countedFor, Entry.countedIn] 

theorem balanced_freeEntry (i : EntryIdx) {s : State} (hs : Balanced s) : Balanced (freeEntry i s) := by
  intro d
  have h := countEntries_replace (freeEntry_entry i · s) (countedFor d)
  have hd := hs d
  rw [freeEntry_dom]
  cases he : s.entry i with
  | none => simp_all
  | some e =>
    cases hc : e.counted <;> cases heq : e.domain? == some d <;> simp_all [countedFor]
    omega

theorem dom_inFlight_countIn_le (i : EntryIdx) (s : State) (d : DomainId) :
    ((countIn i s).dom d).inFlight ≤ (s.dom d).inFlight ∨
      ∃ e, s.entry i = some e ∧ e.domain? = some d ∧ e.counted = false := by
  rw [countIn_dom]
  split
  · next h =>
    cases he : s.entry i with
    | none => simp [he] at h
    | some e => exact .inr ⟨e, rfl, by simpa [he] using h⟩
  · exact .inl le_rfl

theorem dom_inFlight_freeEntry_le (i : EntryIdx) (s : State) (d : DomainId) :
    ((freeEntry i s).dom d).inFlight ≤ (s.dom d).inFlight := by
  rw [freeEntry_dom]
  split
  · exact Nat.sub_le _ _
  · exact le_rfl

theorem countsKept_freeEntry (i : EntryIdx) {s : State} (hs : CountsKept s) : CountsKept (freeEntry i s) := by
  obtain ⟨hmark, hbalance⟩ := (countsKept_iff s).mp hs
  exact (countsKept_iff _).mpr
    ⟨marked_replace (freeEntry_entry i · s) hmark (by simp), balanced_freeEntry i hbalance⟩

/-- The entry of a place that no domain counts is replaced by one that is not in flight. -/
theorem countsKept_setEntry {s : State} {i : EntryIdx} {f : Entry} (hs : CountsKept s)
    (hi : ∀ e ∈ s.entry i, e.counted = false) (hc : f.counted = false) (hn : f.inFlight = false) :
    CountsKept (s.setEntry i (some f)) := by
  obtain ⟨hmark, hbalance⟩ := (countsKept_iff s).mp hs
  refine (countsKept_iff _).mpr ⟨marked_replace (fun j => State.entry_setEntry s j i _) hmark ?_,
    balanced_setEntry hbalance fun d => ?_⟩
  · rintro e ⟨⟩
    rw [Marked, hc, hn, Bool.false_and]
  · rw [Option.any_some, countedFor_eq_false hc]
    cases he : s.entry i with
    | none => rfl
    | some e => rw [Option.any_some, countedFor_eq_false (hi e he)]

/-- An entry comes to be in flight in the place of one that is counted as it is, and is then counted (R6, R63, R70). -/
theorem countsKept_countIn {s : State} {i : EntryIdx} {f : Entry} (hs : CountsKept s) (hn : f.inFlight = true)
    (hf : f.counted = true → f.domain?.isSome = true)
    (hi : ∀ d, countedFor d f = (s.entry i).any (countedFor d)) : CountsKept (countIn i (s.setEntry i (some f))) := by
  obtain ⟨hmark, hbalance⟩ := (countsKept_iff s).mp hs
  refine (countsKept_iff _).mpr ⟨?_, balanced_countIn i (balanced_setEntry hbalance hi)⟩
  have hentry : ∀ j, (countIn i (s.setEntry i (some f))).entry j = if j = i then some f.countedIn else s.entry j :=
    fun j => by
      rw [countIn_entry, State.entry_setEntry_same, State.entry_setEntry]
      split <;> rfl
  refine marked_replace hentry hmark ?_
  rintro e ⟨⟩
  change (f.counted || f.domain?.isSome) = (f.inFlight && f.domain?.isSome)
  rw [hn, Bool.true_and]
  cases hc : f.counted
  · rfl
  · rw [hf hc]; rfl

end Sys2Proof.Proofs
end

section
/-! Every command keeps the law of the in-flight counts: what the commands that move traffic do to it, and what the moves of
the domain state machine leave of it (R50, R70). -/

namespace Sys2Proof.Proofs

-- One proof after another: the memory of a compile grows with the proofs that run at once.
set_option Elab.async false

open Sys2Proof.Machine Sys2Proof.Claims

/-! ## Domains that are up -/

/-- The domain is ACTIVE or DRAINING: it may have traffic in flight (R70). -/
def Up (x : Domain) : Prop :=
  x.state = .active ∨ x.state = .draining

theorem quietKept_iff (s : State) : QuietKept s ↔ ∀ d, Up (s.dom d) ∨ (s.dom d).inFlight = 0 :=
  forall_congr' fun _ => or_assoc.symm

/-- Every move keeps the law at its domain: LOWER is handed with nothing in flight, and no command answers or expires in a
domain that is up. -/
theorem quiet_of_moves {m : Mode} {now : Word} {x y : Domain} {c c' : Slot} {n n' : Nat}
    (h : Moves m now x c n y c' n') (hc : OneCommand x c) (hf : y.inFlight = x.inFlight)
    (hx : Up x ∨ x.inFlight = 0) : Up y ∨ y.inFlight = 0 := by
  rcases hx with hup | hzero
  case inr => exact .inr (hf.trans hzero)
  have he : x.state ≠ .entering := by rcases hup with hs | hs <;> simp [hs]
  have hx : x.state ≠ .exiting := by rcases hup with hs | hs <;> simp [hs]
  have hlow : x.state ≠ .low := by rcases hup with hs | hs <;> simp [hs]
  have hfault : x.state ≠ .fault := by rcases hup with hs | hs <;> simp [hs]
  obtain ⟨hempty, hack, _⟩ := (oneCommand_settled he hx).mp hc
  have hkeep : ∀ {y z : Domain}, Configured x y → z.state = y.state → Up z := fun hy hz => by
    rwa [Up, hz, hy.state_eq]
  cases h with
  | recounted k => exact .inl hup
  | validated => exact .inl hup
  | configured hy _ => exact .inl (hkeep hy rfl)
  | reloaded hy _ => exact .inl (hkeep hy rfl)
  | deepReloaded hy hs => exact absurd hs hlow
  | called hy hs => exact absurd hs he
  | drains hy l _ _ => exact .inl (.inr rfl)
  | retargeted hy l _ => exact .inl (hkeep hy rfl)
  | activated hy l _ => exact .inl (.inl rfl)
  | lowered hy l hs =>
    rcases hs with hs | ⟨_, hzero⟩
    · exact absurd hs hlow
    · exact .inr (hf.trans hzero)
  | raised hy hs => exact absurd hs hlow
  | assumedRetain hs _ => exact absurd hs hfault
  | assumedOff hs _ => exact absurd hs hfault
  | transferred k p hk => simp [hempty] at hk
  | acknowledgedUp k hk => simp [hempty] at hk
  | acknowledgedLow k hk v => simp [hempty] at hk
  | acknowledgedWaking k hk v => simp [hempty] at hk
  | abandoned ha => simp [hack] at ha

theorem quietKept_of_touches {d : DomainId} {s t : State} (h : Touches d s t)
    (hone : ∀ c, OneCommand (s.dom c) (s.slot c)) (hf : ∀ c, (t.dom c).inFlight = (s.dom c).inFlight)
    (hs : QuietKept s) : QuietKept t := by
  rw [quietKept_iff] at hs ⊢
  intro c
  by_cases hc : c = d
  · subst hc
    exact quiet_of_moves h.here (hone c) (hf c) (hs c)
  · rw [(h.elsewhere c hc).1]
    exact hs c

/-- A command that leaves the in-flight counts keeps the law. -/
theorem quietKept_of_effect {s t : State} (h : Effect s t) (hone : ∀ d, OneCommand (s.dom d) (s.slot d))
    (hf : ∀ d, (t.dom d).inFlight = (s.dom d).inFlight) (hs : QuietKept s) : QuietKept t := by
  have hsame : (∀ d, (t.dom d).state = (s.dom d).state) → QuietKept t := fun hstate d => by
    rw [hstate, hf]
    exact hs d
  cases h with
  | recounts h =>
    refine hsame fun d => ?_
    obtain ⟨k, hk⟩ := h.dom d
    rw [hk]
  | touches d h => exact quietKept_of_touches h hone hf hs
  | reset b =>
    obtain ⟨_, _, _, _, _, _, _, _, _, hquiet, _⟩ := kept_powerOn b s
    exact hquiet
  | governing h _ => exact hsame fun d => congrArg Domain.state (h.dom d)
  | transparent h _ => exact hsame fun d => by rw [h.dom, switchToTransparent_dom]
  | switched d _ => exact quietKept_of_touches (touches_takeSwitch d _) hone hf hs

/-! ## Traffic that moves -/

/-- The domains are as they were but for in-flight counts, which are right and have risen in domains that are up alone. -/
structure Carries (s t : State) : Prop where
  recounts : Recounts s t
  counts : CountsKept t
  joins : ∀ d, (t.dom d).inFlight ≤ (s.dom d).inFlight ∨ Up (s.dom d)

theorem Carries.of_steady {s t : State} (h : Steady s t) (hr : Recounts s t) (hs : CountsKept s) : Carries s t :=
  ⟨hr, countsKept_of_steady h hs, fun d => .inl (h.inFlight d).le⟩

theorem Carries.refl {s : State} (hs : CountsKept s) : Carries s s :=
  .of_steady (.refl s) (.refl s) hs

theorem Carries.quietKept {s t : State} (h : Carries s t) (hs : QuietKept s) : QuietKept t := by
  rw [quietKept_iff] at hs ⊢
  intro d
  obtain ⟨k, hk⟩ := h.recounts.dom d
  have hstate : (t.dom d).state = (s.dom d).state := by rw [hk]
  by_cases hup : Up (s.dom d)
  · exact .inl (by rwa [Up, hstate])
  · have hzero := (hs d).resolve_left hup
    exact .inr (Nat.eq_zero_of_le_zero (hzero ▸ (h.joins d).resolve_right hup))

theorem carries_whileRunning {s t u : State} (hs : CountsKept s) (hu : Carries s u) (h : whileRunning s u = .next t) :
    Carries s t := by
  obtain rfl := Host.Outcome.next.inj h
  split
  · exact .refl hs
  · exact hu

/-! ### Passing and issuing -/

theorem countsKept_passEntry {s : State} {i : EntryIdx} {e : Entry} (hs : CountsKept s)
    (hi : ∀ f ∈ s.entry i, f.counted = false) (hc : e.counted = false) : CountsKept (passEntry i e s) := by
  refine countsKept_countIn (s := { s with stage := some i }) (f := { e with state := .passing }) hs rfl
    (fun h => absurd (hc.symm.trans h) Bool.false_ne_true) fun d => ?_
  change countedFor d e = (s.entry i).any (countedFor d)
  rw [countedFor_eq_false hc]
  cases he : s.entry i with
  | none => rfl
  | some f => rw [Option.any_some, countedFor_eq_false (hi f he)]

theorem joins_passEntry (i : EntryIdx) (e : Entry) (s : State) (d : DomainId) :
    ((passEntry i e s).dom d).inFlight ≤ (s.dom d).inFlight ∨ e.domain? = some d := by
  refine (dom_inFlight_countIn_le i _ d).imp_right ?_
  rintro ⟨f, hf, hd, _⟩
  obtain rfl := Option.some.inj ((State.entry_setEntry_same s i _).symm.trans hf)
  exact hd

theorem countsKept_issueEntry {s : State} {i : EntryIdx} {e : Entry} (hs : CountsKept s) (he : s.entry i = some e) :
    CountsKept (issueEntry i e s) := by
  refine countsKept_countIn (f := { e with state := .issued, data := [] }) hs rfl (fun hc => ?_) fun d => ?_
  · have hmark := ((countsKept_iff s).mp hs).1 i e he
    exact (Bool.and_eq_true _ _ ▸ hmark ▸ hc).2
  · rw [he, Option.any_some]
    rfl

theorem joins_issueEntry (i : EntryIdx) (e : Entry) (s : State) (d : DomainId) :
    ((issueEntry i e s).dom d).inFlight ≤ (s.dom d).inFlight ∨ (e.domain? = some d ∧ e.counted = false) := by
  refine (dom_inFlight_countIn_le i _ d).imp_right ?_
  rintro ⟨f, hf, hd⟩
  obtain rfl := Option.some.inj ((State.entry_setEntry_same s i _).symm.trans hf)
  exact hd

/-! ### What the laws of the pool say of the entries -/

theorem parked_of_poolKept {s : State} (h : PoolKept s) : Parked s := by
  refine ⟨fun l i hi e he => ?_, fun i hi e he => ?_⟩
  · obtain ⟨f, hf, hs, _⟩ := held_live h hi
    obtain rfl := Option.some.inj (hf.symm.trans he)
    simp [Entry.inFlight, hs]
  · obtain ⟨f, hf, hs⟩ := stalled_live h hi
    obtain rfl := Option.some.inj (hf.symm.trans he)
    simp [Entry.inFlight, hs]

theorem counted_of_stage {s : State} (hp : PoolKept s) (hc : CountsKept s) {i : EntryIdx} {e : Entry}
    (hi : s.stage = some i) (he : s.entry i = some e) : e.counted = e.domain?.isSome := by
  obtain ⟨_, _, ⟨_, _, hstage, _⟩, _⟩ := hp
  have hin := (hstage i).mp hi
  simp only [State.entryIn, he, beq_iff_eq] at hin
  rw [hc.1 i e he, Entry.inFlight, hin]
  rfl

/-! ### The decision to pass -/

theorem domainStep_pass {s : State} {d : DomainId} {permitted : Bool} {n : InitiatorId} {own : Nat}
    (h : domainStep s d permitted n own = .pass) : Up (s.dom d) := by
  unfold domainStep at h
  cases hs : (s.dom d).state <;> simp only [hs, reduceCtorEq] at h
  case active => exact .inl hs
  case draining => exact .inr hs
  all_goals split at h <;> cases h

theorem decodeThrough_pass {s : State} {r : Request} {w : WindowId} {d : DomainId}
    (hl : (decodeThrough s r w).list = some (.domain d)) (h : (decodeThrough s r w).decision = .pass) :
    Up (s.dom d) := by
  unfold decodeThrough at hl h
  cases hk : (s.win w).kind with
  | steering => simp [hk] at hl
  | memory =>
    simp only [hk] at hl h
    split at hl
    · next hg => simp [hg, declinedAs] at h
    · next hg =>
      rw [if_neg hg] at h
      obtain rfl : (s.win w).domain = d := by simpa using hl
      exact domainStep_pass h

/-- A request that passes into a domain finds it up: by the domain-state step, and in TRANSPARENT mode every domain is
ACTIVE (R44, R165). -/
theorem decodeRequest_pass {s : State} (ht : TransparentKept s) {r : Request} {d : DomainId}
    (hl : (decodeRequest s r).list = some (.domain d)) (h : (decodeRequest s r).decision = .pass) :
    Up (s.dom d) := by
  unfold decodeRequest at hl h
  cases hm : s.mode with
  | transparent => exact .inl ((ht hm).1 d).1
  | governing =>
    simp only [hm] at hl h
    unfold decodeGoverning at hl h
    split at hl
    · simp [declinedAs] at hl
    next hfree =>
    rw [if_neg hfree] at h
    split at hl
    · simp [declinedAs] at hl
    next hgranule =>
    rw [if_neg hgranule] at h
    cases hw : s.windowFor r.address with
    | none => simp [hw, decodeUnmanaged] at hl
    | some w =>
      simp only [hw] at hl h
      split at hl
      · next hp =>
        rw [if_pos hp] at h
        exact decodeThrough_pass hl h
      · next hp => simp [hp, declinedAs] at h

/-! ### Acceptance and re-examination -/

theorem steady_giveNotice (e : Entry) (wake : Bool) (s : State) : Steady s (giveNotice e wake s) := by
  rw [giveNotice_eq]
  exact ⟨fun _ => rfl, fun _ => rfl⟩

theorem steady_takePlace (n : InitiatorId) (s : State) : Steady s (takePlace n s) := ⟨fun _ => rfl, fun _ => rfl⟩

theorem steady_givePlace (n : InitiatorId) (s : State) : Steady s (givePlace n s) := ⟨fun _ => rfl, fun _ => rfl⟩

theorem steady_leaveLists (i : EntryIdx) (s : State) : Steady s (leaveLists i s) := ⟨fun _ => rfl, fun _ => rfl⟩

theorem steady_leaveStall (s : State) : Steady s (leaveStall s) := ⟨fun _ => rfl, fun _ => rfl⟩

theorem steady_offer (e : Event) (s : State) : Steady s (offer e s) := by
  rw [offer_eq]
  exact ⟨fun _ => rfl, fun _ => rfl⟩

theorem steady_prompt (s : State) : Steady s (prompt s) := by
  rw [prompt_eq]
  exact ⟨fun _ => rfl, fun _ => rfl⟩

theorem steady_joinList (i : EntryIdx) (e : Entry) (r : HoldReason) (s : State) :
    Steady (s.setEntry i (some { e with state := .held, reason := some r })) (joinList i e r s) := by
  unfold joinList
  dsimp only
  split
  · exact ⟨fun _ => by rw [State.setHeld_entry], fun _ => by rw [State.setHeld_dom]⟩
  · exact .refl _

theorem countsKept_holdNew {s : State} {i : EntryIdx} {e : Entry} (r : HoldReason) (hs : CountsKept s)
    (hi : s.entry i = none) (hc : e.counted = false) : CountsKept (holdNew i e r s) := by
  have hnone : ∀ f ∈ s.entry i, f.counted = false := by simp [hi]
  unfold holdNew
  split
  · exact countsKept_of_steady
      (((steady_joinList i e r s).trans (steady_takePlace _ _)).trans (steady_giveNotice e _ _))
      (countsKept_setEntry hs hnone hc rfl)
  · split
    · rw [decline_eq _ (State.entry_setEntry_same s i _), declinedAt_setEntry]
      exact countsKept_of_steady ⟨fun _ => rfl, fun _ => rfl⟩
        (countsKept_setEntry (f := decliningEntry .poolFull e) hs hnone hc rfl)
    · have hset := countsKept_setEntry (f := { e with state := .stalled }) hs hnone hc rfl
      have hstall : ∀ u : State, Steady u { u with stalled := some i, prompts := 0 } := fun u =>
        ⟨fun _ => rfl, fun _ => rfl⟩
      exact countsKept_of_steady (((steady_takePlace e.initiator _).trans (hstall _)).trans (steady_offer _ _)) hset

theorem holdNew_dom (i : EntryIdx) (e : Entry) (r : HoldReason) (s : State) (d : DomainId) :
    ((holdNew i e r s).dom d).inFlight = (s.dom d).inFlight := by
  unfold holdNew
  split
  · exact (((steady_joinList i e r s).trans (steady_takePlace _ _)).trans (steady_giveNotice e _ _)).inFlight d
  · split
    · rw [((beside_setEntry i _ s).trans (beside_decline i _ _)).dom]
    · exact (steady_offer _ _).inFlight d

theorem countsKept_placeNew {s : State} {i : EntryIdx} {e : Entry} (x : Decision) (hs : CountsKept s)
    (hi : s.entry i = none) (hc : e.counted = false) : CountsKept (placeNew i e x s) := by
  have hnone : ∀ f ∈ s.entry i, f.counted = false := by simp [hi]
  cases x with
  | pass =>
    have hpass := countsKept_passEntry hs hnone hc
    unfold placeNew
    dsimp only
    split
    · exact countsKept_of_steady (steady_giveNotice e false _) hpass
    · exact hpass
  | hold r => exact countsKept_holdNew r hs hi hc
  | decline c =>
    unfold placeNew
    dsimp only
    rw [decline_eq _ (State.entry_setEntry_same s i _), declinedAt_setEntry]
    exact countsKept_of_steady ⟨fun _ => rfl, fun _ => rfl⟩
      (countsKept_setEntry (f := decliningEntry c e) hs hnone hc rfl)

theorem joins_placeNew (i : EntryIdx) (e : Entry) (x : Decision) (s : State) (d : DomainId) :
    ((placeNew i e x s).dom d).inFlight ≤ (s.dom d).inFlight ∨ (x = .pass ∧ e.domain? = some d) := by
  cases x with
  | pass =>
    have hpass := (joins_passEntry i e s d).imp_right fun h => (⟨rfl, h⟩ : Decision.pass = .pass ∧ _)
    unfold placeNew
    dsimp only
    split
    · rw [(steady_giveNotice e false _).inFlight]
      exact hpass
    · exact hpass
  | hold r => exact .inl (holdNew_dom i e r s d).le
  | decline c => exact .inl (((beside_setEntry i _ s).trans (beside_decline i c _)).dom d ▸ le_rfl)

theorem carries_acceptAt {s : State} (hs : CountsKept s) (ht : TransparentKept s) {i : EntryIdx} (r : Request)
    (hi : s.entry i = none) : Carries s (acceptAt i r s) := by
  have key : ∀ u : State, Steady s u → CountsKept u ∧ u.entry i = none := fun u hu =>
    ⟨countsKept_of_steady hu hs, by have := hu.entry i; rwa [hi, Option.map_none, Option.map_eq_none_iff] at this⟩
  obtain ⟨u, hu, heq⟩ : ∃ u, Steady s u ∧
      acceptAt i r s = placeNew i (newEntry s r (decodeRequest s r)) (decodeRequest s r).decision u := by
    refine ⟨_, ?_, rfl⟩
    cases (decodeRequest s r).word with
    | none => exact ⟨fun _ => rfl, fun _ => rfl⟩
    | some w =>
      obtain ⟨_, _, h⟩ := takeSteeringWord_frame w r { s with nextOrder := s.nextOrder + 1 }
      dsimp only
      rw [h]
      exact ⟨fun _ => rfl, fun _ => rfl⟩
  obtain ⟨hcounts, hfree⟩ := key u hu
  refine ⟨recounts_acceptAt i r s, ?_, fun d => ?_⟩
  · rw [heq]
    exact countsKept_placeNew _ hcounts hfree rfl
  · rw [heq, ← hu.inFlight]
    refine (joins_placeNew i _ _ u d).imp_right fun ⟨hx, hd⟩ => decodeRequest_pass ht ?_ hx
    exact domain?_eq_some_iff.mp hd

theorem reExamined_pass {s : State} {e : Entry} {d : DomainId} (h : reExamined s e = .pass)
    (hd : e.domain? = some d) : Up (s.dom d) := by
  rw [domain?_eq_some_iff] at hd
  simp only [reExamined, hd] at h
  exact domainStep_pass h

theorem carries_reExamine {s : State} (hs : CountsKept s) {i : EntryIdx} {e : Entry} (he : s.entry i = some e)
    (hn : e.inFlight = false) : Carries s (reExamine i e s) := by
  have hr := recounts_reExamine i e s
  have hc : e.counted = false := (((countsKept_iff s).mp hs).1 i e he).counted_eq_false hn
  have hold : ∀ f ∈ s.entry i, f.counted = false := by
    rintro f hf
    obtain rfl := Option.some.inj (he.symm.trans hf)
    exact hc
  unfold reExamine at hr ⊢
  cases hx : reExamined s e with
  | pass =>
    simp only [hx] at hr ⊢
    have hleave := (steady_leaveStall s).trans (steady_givePlace e.initiator _)
    have hpass : CountsKept (passEntry i e (givePlace e.initiator (leaveStall s))) :=
      countsKept_passEntry (countsKept_of_steady hleave hs) hold hc
    refine ⟨hr, countsKept_of_steady (steady_giveNotice e false _) hpass, fun d => ?_⟩
    rw [(steady_giveNotice e false _).inFlight, ← hleave.inFlight]
    exact (joins_passEntry i e _ d).imp_right (reExamined_pass hx)
  | hold r =>
    simp only [hx] at hr ⊢
    split at hr
    · next hroom =>
      rw [if_pos hroom]
      refine ⟨hr, countsKept_of_steady ((steady_joinList i e r _).trans (steady_giveNotice e _ _))
        (countsKept_setEntry (countsKept_of_steady (steady_leaveStall s) hs) hold hc rfl), fun d => .inl ?_⟩
      exact (((steady_joinList i e r (leaveStall s)).trans (steady_giveNotice e (r == .wake) _)).inFlight d).le
    · next hroom =>
      rw [if_neg hroom]
      exact .of_steady ⟨fun _ => rfl, fun _ => rfl⟩ hr hs
  | decline c =>
    simp only [hx] at hr ⊢
    refine .of_steady (steady_declineStalled fun f hf => ?_) hr hs
    obtain rfl := Option.some.inj (he.symm.trans hf)
    exact hn

/-! ### Issue -/

theorem mem_of_oldest {s : State} {l : List EntryIdx} {i : EntryIdx} (h : s.oldest l = some i) : i ∈ l := by
  induction l with
  | nil => cases h
  | cons j l ih =>
    unfold State.oldest at h
    split at h
    · obtain rfl := Option.some.inj h
      exact List.mem_cons_self
    · next k hk =>
      split at h
      · exact List.mem_cons_of_mem j (ih (hk.trans h))
      · obtain rfl := Option.some.inj h
        exact List.mem_cons_self

theorem eligibleHead_mem {s : State} {l : ListId} {i : EntryIdx} (h : s.eligibleHead l = some i) :
    i ∈ s.held l ∧ s.listOpen l = true := by
  unfold State.eligibleHead at h
  split at h
  · cases h
  · next j rest hl =>
    split at h
    · split at h
      · next hc =>
        obtain rfl := Option.some.inj h
        simp only [Bool.and_eq_true] at hc
        exact ⟨hl ▸ List.mem_cons_self, hc.1.2⟩
      · cases h
    · cases h

/-- The release candidate stands in a list that is OPEN or whose domain is up (R61, R87). -/
theorem releaseCandidate_mem {s : State} {i : EntryIdx} (h : s.releaseCandidate = some i) :
    ∃ l, i ∈ s.held l ∧ s.listOpen l = true := by
  obtain ⟨l, _, hl⟩ := List.mem_filterMap.mp (mem_of_oldest h)
  exact ⟨l, eligibleHead_mem hl⟩

theorem issueChoice_cases {s : State} {i : EntryIdx} (h : s.issueChoice = some i) :
    s.stage = some i ∨ s.releaseCandidate = some i := by
  unfold State.issueChoice at h
  split at h
  · next p r hp hr =>
    split at h
    · exact .inl (hp.trans h)
    · exact .inr (hr.trans h)
  · next p hp _ => exact .inl (hp.trans h)
  · exact .inr h

theorem carries_issuePassing {s : State} (hp : PoolKept s) (hs : CountsKept s) {i : EntryIdx} {e : Entry}
    (he : s.entry i = some e) (hi : s.stage = some i) : Carries s (issuePassing i e s) := by
  refine ⟨recounts_issuePassing i e s, countsKept_issueEntry hs he, fun d => .inl ?_⟩
  refine (joins_issueEntry i e s d).resolve_right fun ⟨hd, hc⟩ => ?_
  have hcount := counted_of_stage hp hs hi he
  simp [hd, hc] at hcount

theorem carries_issueHeld {s : State} (hp : PoolKept s) (hs : CountsKept s) {i : EntryIdx} {e : Entry}
    (he : s.entry i = some e) (hi : s.releaseCandidate = some i) : Carries s (issueHeld i e s) := by
  have hleave := (steady_leaveLists i s).trans (steady_givePlace e.initiator _)
  have hturn : ∀ u : State, Steady u (prompt { u with issueTurn := .pass }) := fun u =>
    Steady.trans (t := { u with issueTurn := .pass }) ⟨fun _ => rfl, fun _ => rfl⟩ (steady_prompt _)
  refine ⟨recounts_issueHeld i e s, countsKept_of_steady (hturn _)
    (countsKept_issueEntry (countsKept_of_steady hleave hs) he), fun d => ?_⟩
  unfold issueHeld
  rw [(hturn _).inFlight, ← hleave.inFlight]
  refine (joins_issueEntry i e _ d).imp_right fun ⟨hd, _⟩ => ?_
  obtain ⟨l, hl, hopen⟩ := releaseCandidate_mem hi
  obtain ⟨f, hf, _, hlist⟩ := held_live hp hl
  obtain rfl := Option.some.inj (he.symm.trans hf)
  obtain rfl : l = .domain d := Option.some.inj (hlist.symm.trans (domain?_eq_some_iff.mp hd))
  simpa [State.listOpen, Up] using hopen

/-! ### Freeing, and the port reset -/

theorem Carries.freeEntry {s u : State} (i : EntryIdx) (hs : CountsKept s) (h : Steady (freeEntry i s) u)
    (hr : Recounts s u) : Carries s u :=
  ⟨hr, countsKept_of_steady h (countsKept_freeEntry i hs), fun d =>
    .inl (h.inFlight d ▸ dom_inFlight_freeEntry_le i s d)⟩

theorem carries_matchResponse {s : State} (r : MemResponse) (hs : CountsKept s) : Carries s (matchResponse r s) := by
  have hsteady : ∀ u, Steady s u → CountsKept u ∧ ∀ d, (u.dom d).inFlight ≤ (s.dom d).inFlight := fun u hu =>
    ⟨countsKept_of_steady hu hs, fun d => (hu.inFlight d).le⟩
  have key : CountsKept (matchResponse r s) ∧ ∀ d, ((matchResponse r s).dom d).inFlight ≤ (s.dom d).inFlight := by
    unfold matchResponse
    split
    · split
      · exact hsteady _ ⟨fun _ => rfl, fun _ => rfl⟩
      split
      · exact ⟨countsKept_freeEntry _ hs, dom_inFlight_freeEntry_le _ s⟩
      · exact hsteady _ (steady_offer _ s)
    · exact hsteady _ (steady_offer _ s)
  exact ⟨recounts_matchResponse r s, key.1, fun d => .inl (key.2 d)⟩

theorem balanced_emptied {s : State} (hs : Balanced s) : Balanced (emptied s) := by
  intro d
  have hcount : allEntries.countP (s.lostIn d) + (emptied s).countEntries (countedFor d) =
      s.countEntries (countedFor d) := by
    rw [State.countEntries, countP_add_of_disjoint]
    · refine List.countP_congr fun i _ => ?_
      rw [emptied_entry, State.lostIn]
      cases he : s.entry i with
      | none => simp
      | some e =>
        cases ha : s.answers i <;> cases hr : e.reached <;>
          simp [Entry.afterReset, hr, countedFor, Entry.domain?]
    · intro i _ hl
      rw [emptied_entry]
      rw [State.lostIn] at hl
      cases he : s.entry i with
      | none => simp
      | some e =>
        cases ha : s.answers i <;> cases hr : e.reached <;> simp_all [Entry.afterReset]
  rw [emptied_dom, hs d, ← hcount]
  exact Nat.add_sub_cancel_left ..

theorem countsKept_emptied {s : State} (hs : CountsKept s) : CountsKept (emptied s) := by
  obtain ⟨hmark, hbalance⟩ := (countsKept_iff s).mp hs
  refine (countsKept_iff _).mpr ⟨fun i e he => ?_, balanced_emptied hbalance⟩
  rw [emptied_entry] at he
  split at he
  · cases he
  obtain ⟨f, hf, hfe⟩ := Option.bind_eq_some_iff.mp he
  unfold Entry.afterReset at hfe
  split at hfe
  · next hreached =>
    obtain rfl := Option.some.inj hfe
    have hn : f.inFlight = true := by
      simp only [Entry.reached, Bool.or_eq_true] at hreached
      rcases hreached with h | h <;> simp [Entry.inFlight, h]
    have hc : f.counted = (f.inFlight && f.domain?.isSome) := hmark i f hf
    rw [hn] at hc
    exact hc
  · cases hfe

theorem steady_resetPortAfter (s u : State) : Steady u (resetPortAfter s u) := ⟨fun _ => rfl, fun _ => rfl⟩

theorem carries_resetPort {s : State} (hs : CountsKept s) : Carries s (resetPort s) := by
  have hr := recounts_resetPort s
  rw [resetPort_eq] at hr ⊢
  have hafter := steady_resetPortAfter s (emptied s)
  refine ⟨hr, countsKept_of_steady hafter (countsKept_emptied hs), fun d => .inl ?_⟩
  rw [hafter.inFlight, emptied_dom]
  exact Nat.sub_le _ _

/-! ## Every command -/

theorem entry_of_lowestFree {s : State} {i : EntryIdx} (h : s.lowestFree = some i) : s.entry i = none := by
  simpa using List.find?_some h

theorem carries_execIssue {s t : State} (hp : PoolKept s) (hs : CountsKept s) (h : execIssue s = .next t) :
    Carries s t := by
  refine carries_whileRunning hs ?_ h
  split
  · next i hi =>
    split
    · next e he =>
      split
      · next hstage => exact carries_issuePassing hp hs he hstage
      · next hstage => exact carries_issueHeld hp hs he ((issueChoice_cases hi).resolve_left hstage)
    · exact .refl hs
  · exact .refl hs

theorem carries_execReExamination {s t : State} (hp : PoolKept s) (hs : CountsKept s)
    (h : execReExamination s = .next t) : Carries s t := by
  refine carries_whileRunning hs ?_ h
  split
  · next i hi =>
    split
    · next e he =>
      split
      · exact carries_reExamine hs he ((parked_of_poolKept hp).stalled i hi e he)
      · exact .refl hs
    · exact .refl hs
  · exact .refl hs

/-- Every command that moves traffic. -/
theorem exec_carries {c : Instr} {s t : State} (hk : Kept s) (h : exec c s = .next t) (hm : movesTraffic c = true) :
    Carries s t := by
  obtain ⟨_, hp, hs, _, _, _, _, ht, _⟩ := hk
  have hfree : ∀ (i : EntryIdx) (u : State), Steady (freeEntry i s) u → Recounts s u → Carries s u := fun i u hu hr =>
    .freeEntry i hs hu hr
  cases c with
  | acceptance r =>
    refine carries_whileRunning hs ?_ h
    split
    · split
      · next i hi => exact carries_acceptAt hs ht r (entry_of_lowestFree hi)
      · exact .refl hs
    · exact .refl hs
  | issue => exact carries_execIssue hp hs h
  | downstreamResponse r =>
    refine carries_whileRunning hs ?_ h
    split
    · exact .refl hs
    · exact carries_matchResponse r hs
  | forwarding =>
    refine carries_whileRunning hs ?_ h
    split
    · split
      · split
        · exact hfree _ _ ⟨fun _ => rfl, fun _ => rfl⟩ (recounts_forwardEntry _ _ _ s)
        · exact .refl hs
      · exact .refl hs
    · exact .refl hs
  | declineSend =>
    refine carries_whileRunning hs ?_ h
    split
    · split
      · split
        · split
          · exact hfree _ _ ⟨fun _ => rfl, fun _ => rfl⟩ (recounts_sendDecline _ _ _ s)
          · exact .refl hs
        · exact .refl hs
      · exact .refl hs
    · exact .refl hs
  | reExamination => exact carries_execReExamination hp hs h
  | holdDeadlineExpiry i =>
    refine carries_whileRunning hs ?_ h
    split
    · next e he =>
      split
      · next hheld =>
        refine .of_steady ((steady_declineHeld fun f hf => ?_).trans (steady_prompt _))
          ((beside_declineHeld .holdTimeout s i).trans (beside_prompt _)).recounts hs
        obtain rfl := Option.some.inj (he.symm.trans hf)
        simp [Entry.inFlight, hheld.1]
      · exact .refl hs
    · exact .refl hs
  | stallDeadlineExpiry =>
    refine carries_whileRunning hs ?_ h
    split
    · next i hi =>
      split
      · split
        · exact .of_steady (steady_declineStalled ((parked_of_poolKept hp).stalled i hi))
            (beside_declineStalled .holdTimeout s i).recounts hs
        · exact .refl hs
      · exact .refl hs
    · exact .refl hs
  | portReset =>
    obtain rfl := Host.Outcome.next.inj h
    split
    · exact .refl hs
    split
    · exact .of_steady ⟨fun _ => rfl, fun _ => rfl⟩ (Beside.recounts ⟨rfl, rfl, rfl, rfl, rfl, rfl, le_rfl⟩) hs
    · exact carries_resetPort hs
  | _ => cases hm

theorem steady_inFrame {k : Option Command} {s t u : State} (hu : Steady s u) (h : inFrame k s u = .next t) :
    Steady s t := by
  obtain rfl := Host.Outcome.next.inj h
  split
  · exact hu
  · exact .refl s

theorem steady_execSetMode {b : Byte} {s t : State} (h : execSetMode b s = .next t) : Steady s t := by
  have hsame : ∀ status bytes, Steady s (reply status bytes s) := fun _ _ => ⟨fun _ => rfl, fun _ => rfl⟩
  refine steady_inFrame ?_ h
  split
  · rename_i m _
    unfold takeMode
    split
    · exact hsame _ _
    cases m with
    | governing => exact ⟨fun _ => rfl, fun _ => rfl⟩
    | transparent =>
      dsimp only
      split
      · exact Steady.trans (t := switchToTransparent s)
          ⟨fun _ => rfl, fun d => by rw [switchToTransparent_dom]⟩ ⟨fun _ => rfl, fun _ => rfl⟩
      · exact hsame _ _
  · exact hsame _ _

theorem steady_storeInitiator (n : InitiatorId) (quota : Nat) (strict : Bool) (s : State) :
    Steady s (storeInitiator n quota strict s) := by
  unfold storeInitiator
  dsimp only
  split
  · exact Steady.trans (t := s.setInit n _) ⟨fun _ => rfl, fun _ => rfl⟩ (steady_prompt _)
  · exact ⟨fun _ => rfl, fun _ => rfl⟩

/-- A command that has a setting of its own leaves the counting of traffic. -/
theorem exec_steady_of_setsSetting {c : Instr} {s t : State} (h : exec c s = .next t) (hs : setsSetting c = true)
    (hm : movesTraffic c = false) (hon : c ≠ .powerOnReset) (hoff : c ≠ .powerOnResetRelease) : Steady s t := by
  have hsame : ∀ status bytes, Steady s (reply status bytes s) := fun _ _ => ⟨fun _ => rfl, fun _ => rfl⟩
  cases c with
  | timebaseAdvance =>
    obtain rfl := Host.Outcome.next.inj h
    split
    · exact .refl s
    · exact ⟨fun _ => rfl, fun _ => rfl⟩
  | setMode b => exact steady_execSetMode h
  | writeWindow b r =>
    refine steady_inFrame ?_ h
    split
    · split
      · exact ⟨fun _ => rfl, fun _ => rfl⟩
      · exact hsame _ _
    · exact hsame _ _
  | setEventControl hi lo f =>
    refine steady_inFrame ?_ h
    split
    · exact ⟨fun _ => rfl, fun _ => rfl⟩
    · exact hsame _ _
  | writeInitiator b q f =>
    refine steady_inFrame ?_ h
    split
    · split
      · exact hsame _ _
      · exact (steady_storeInitiator _ _ _ s).trans ⟨fun _ => rfl, fun _ => rfl⟩
    · exact hsame _ _
  | frameAbort bits =>
    obtain rfl := Host.Outcome.next.inj h
    split
    · exact ⟨fun _ => rfl, fun _ => rfl⟩
    · exact .refl s
  | readStatus =>
    refine steady_inFrame ?_ h
    exact ⟨fun _ => rfl, fun _ => rfl⟩
  | portResetRelease =>
    obtain rfl := Host.Outcome.next.inj h
    exact ⟨fun _ => rfl, fun _ => rfl⟩
  | powerOnReset => exact absurd rfl hon
  | powerOnResetRelease => exact absurd rfl hoff
  | portReset => cases hm
  | _ => cases hs

/-- A command that leaves the counting of traffic keeps the law. -/
theorem inFlightLaw_of_steady {c : Instr} {s t : State} (hk : Kept s) (h : exec c s = .next t) (hst : Steady s t) :
    CountsKept t ∧ QuietKept t := by
  obtain ⟨_, _, hs, hslots, _, hwake, _, _, _, hquiet, _⟩ := hk
  exact ⟨countsKept_of_steady hst hs,
    quietKept_of_effect (exec_effect h) ((oneCommand_iff s).mp ⟨hslots, hwake⟩) hst.inFlight hquiet⟩

theorem inFlightLaw_powerOn (b : Bool) (s : State) : CountsKept (powerOn b s) ∧ QuietKept (powerOn b s) := by
  obtain ⟨_, _, hcounts, _, _, _, _, _, _, hquiet, _⟩ := kept_powerOn b s
  exact ⟨hcounts, hquiet⟩

theorem exec_inFlightLaw {c : Instr} {s t : State} (hk : Kept s) (h : exec c s = .next t) :
    CountsKept t ∧ QuietKept t := by
  cases hm : movesTraffic c
  case true =>
    have hcarries := exec_carries hk h hm
    obtain ⟨_, _, _, _, _, _, _, _, _, hquiet, _⟩ := hk
    exact ⟨hcarries.counts, hcarries.quietKept hquiet⟩
  cases hs : setsSetting c
  case false =>
    obtain ⟨_, hp, _⟩ := id hk
    exact inFlightLaw_of_steady hk h ((exec_undisturbed h hm hs).steady (parked_of_poolKept hp))
  by_cases hon : c = .powerOnReset
  · subst hon
    have heq := Host.Outcome.next.inj h
    split at heq
    · exact inFlightLaw_of_steady hk h (heq ▸ .refl s)
    · exact heq ▸ inFlightLaw_powerOn true s
  by_cases hoff : c = .powerOnResetRelease
  · subst hoff
    have heq := Host.Outcome.next.inj h
    split at heq
    · exact heq ▸ inFlightLaw_powerOn false s
    · exact inFlightLaw_of_steady hk h (heq ▸ .refl s)
  exact inFlightLaw_of_steady hk h (exec_steady_of_setsSetting h hs hm hon hoff)

/-- Settles O57: by the commands that move traffic, those that leave its counting, and the two edges of RESETN. -/
theorem stepKeepsInFlightLaw : Obligations.StepKeepsInFlightLaw := by
  intro s t hs hstep
  unfold step at hstep
  split at hstep
  · obtain rfl := Host.Outcome.next.inj hstep
    obtain ⟨_, _, hcounts, _, _, _, _, _, _, hquiet, _⟩ := hs
    exact ⟨hcounts, hquiet⟩
  · next rest _ =>
    have hs' : Kept { s with pending := rest } := hs
    exact exec_inFlightLaw hs' hstep

end Sys2Proof.Proofs
end

section
/-! The window table and the request decoder: the lowest match, the checks of the decode sequence, and the domain-state step
(R34, R36 to R46, R51, R79, R85). -/

namespace Sys2Proof.Proofs

-- One proof after another: the memory of a compile grows with the proofs that run at once.
set_option Elab.async false

open Sys2Proof.Machine Sys2Proof.Claims

/-! ## The window table -/

theorem find?_finRange_eq_some_iff {n : Nat} {p : Fin n → Bool} {i : Fin n} :
    (List.finRange n).find? p = some i ↔ p i = true ∧ ∀ j < i, ¬p j = true := by
  rw [List.find?_eq_some_iff_getElem]
  refine and_congr_right fun _ => ⟨?_, fun h => ⟨i.val, by simp, by simp, fun j hj => ?_⟩⟩
  · rintro ⟨k, hk, rfl, h⟩ j hj
    simpa using h j.val (by simpa [Fin.lt_def] using hj)
  · simpa using h ⟨j, hj.trans i.isLt⟩ hj

/-- A window matches by its enable flag and the address bits that its mask leaves (R36). -/
theorem matches_iff (w : Window) (a : Word) : w.matches a = true ↔ Matches w a := by
  have hbits : ((a.extractLsb' 12 20 ^^^ w.base) &&& ~~~w.mask) = 0 ↔
      ∀ k < 20, w.mask.getLsbD k = false → a.getLsbD (12 + k) = w.base.getLsbD k := by
    rw [BitVec.eq_of_getLsbD_eq_iff]
    refine forall₂_congr fun k hk => ?_
    rw [BitVec.getLsbD_and, BitVec.getLsbD_xor, BitVec.getLsbD_not, BitVec.getLsbD_extractLsb']
    cases w.mask.getLsbD k <;> simp [hk]
  rw [Window.matches, Bool.and_eq_true, beq_iff_eq, hbits]
  rfl

/-- Settles O28. -/
theorem windowIsLowestMatch : Obligations.WindowIsLowestMatch := by
  refine fun s a => ⟨fun w => ?_, ?_⟩
  · simp only [State.windowFor, find?_finRange_eq_some_iff, matches_iff]
  · simp only [State.windowFor, List.find?_eq_none, List.mem_finRange, true_imp_iff, matches_iff]

theorem reset_win (w : WindowId) : State.reset.win w = Window.reset := by
  simp [State.win, State.reset]

/-- Settles O5: the values of power-on reset, no window of which is enabled; a port reset keeps the windows as every command
but WRITE WINDOW does, and under RESETN the rows of the hold pool do not take place. -/
theorem resetWindowsAndHoldPool : Obligations.ResetWindowsAndHoldPool := by
  refine ⟨reset_win, fun a => ?_, fun s t h => ?_, reset_entry, rfl, fun l _ => reset_held l, rfl, reset_init,
    fun s hr => ⟨fun r => ?_, ?_, ?_, fun i => ?_, ?_⟩⟩
  · rw [(windowIsLowestMatch State.reset a).2]
    rintro w ⟨henable, _⟩
    rw [reset_win] at henable
    cases henable
  · obtain ⟨_, _, _, _, hwindows, _⟩ := keepsOthers_portReset h
    exact hwindows fun _ _ => Instr.noConfusion
  all_goals exact whileRunning_inReset hr

/-! ## The domain-state step -/

theorem clear_iff (s : State) (l : ListId) (n : InitiatorId) (own : Nat) :
    s.clear l n own = true ↔ IsClear s l n own := by
  simp [State.clear, State.strictBlocked, IsClear, imp_iff_not_or]

theorem orderDecision_clear {s : State} {l : ListId} {n : InitiatorId} {own : Nat} :
    (IsClear s l n own → orderDecision (s.clear l n own) = .pass) ∧
      (¬IsClear s l n own → orderDecision (s.clear l n own) = .hold .order) :=
  ⟨fun h => if_pos ((clear_iff ..).mpr h), fun h => if_neg fun hc => h ((clear_iff ..).mp hc)⟩

section Step

variable {s : State} {d : DomainId}

/-- An ACTIVE domain, and a DRAINING one that is not pinned low, take requests in order (R44). -/
theorem domainStep_up (permitted : Bool) (n : InitiatorId) (own : Nat)
    (h : (s.dom d).state = .active ∨ ((s.dom d).state = .draining ∧ (s.dom d).pin ≠ .holdLow)) :
    domainStep s d permitted n own = orderDecision (s.clear (.domain d) n own) := by
  rcases h with h | ⟨h, hp⟩
  · simp only [domainStep, h]
  · simp only [domainStep, h, hp, if_false]

/-- A domain on its way down or LOW is woken where the window and the pin permit it (R44). -/
theorem domainStep_down (permitted : Bool) (n : InitiatorId) (own : Nat)
    (h : (s.dom d).state = .entering ∨ (s.dom d).state = .low) :
    domainStep s d permitted n own =
      if permitted = true ∧ (s.dom d).pin ≠ .holdLow then .hold .wake else .decline .asleep := by
  rcases h with h | h <;> simp only [domainStep, h]

end Step

/-- Settles O30: by the state of the domain and its pin (R44), and on the OPEN path by its list (R46). -/
theorem domainStateStep : Obligations.DomainStateStep := by
  intro s d permitted n own
  refine ⟨fun h => ?_, fun h hp => ?_, fun h => ?_, fun h => ?_, fun h => ?_, orderDecision_clear⟩
  · rw [domainStep_up permitted n own h]
    exact orderDecision_clear
  · simp only [domainStep, h, hp, if_true]
  · rw [domainStep_down permitted n own h]
    exact ⟨fun hp => if_pos hp, fun hp => if_neg hp⟩
  · simp only [domainStep, h]
  · simp only [domainStep, h]

end Sys2Proof.Proofs
end

section
/-! The decode sequence of both modes (R37 to R43, R46, R49, R51). -/

namespace Sys2Proof.Proofs

-- One proof after another: the memory of a compile grows with the proofs that run at once.
set_option Elab.async false

open Sys2Proof.Machine Sys2Proof.Claims

/-! ## The checks -/

theorem tagTaken_iff (s : State) (r : Request) : s.tagTaken r = true ↔ TagInUse s r := by
  rw [State.tagTaken, List.any_eq_true, TagInUse]
  refine exists_congr fun j => ?_
  rw [and_iff_right (List.mem_finRange j)]
  cases s.entry j <;> simp [and_assoc]

theorem requestBytes_eq (r : Request) : requestBytes r.length = bytesOf r := rfl

theorem bytesOf_pos (r : Request) : 1 ≤ bytesOf r := by
  unfold bytesOf
  split
  · decide
  · next h =>
    rw [Nat.one_le_iff_ne_zero]
    exact fun hz => h (BitVec.eq_of_toNat_eq hz)

/-- The last byte of a request is in the granule of its first exactly where all its bytes are (R40). -/
theorem crossesGranule_iff (r : Request) : crossesGranule r = true ↔ ¬InOneGranule r := by
  have hpos := bytesOf_pos r
  rw [crossesGranule, bne_iff_ne, requestBytes_eq, InOneGranule, Config.granule]
  omega

theorem permits_iff (w : Window) (r : Request) : w.permits r = true ↔ Permitted w r := by
  rw [Window.permits, Bool.and_eq_true, Permitted]
  refine and_congr_left fun _ => ?_
  cases r.direction <;> cases r.privilege <;> rfl

theorem extract_two_eq_zero_iff (a : Word) : a.extractLsb' 0 2 = 0 ↔ a.toNat % 4 = 0 := by
  rw [← BitVec.toNat_inj, BitVec.extractLsb'_toNat, Nat.shiftRight_zero]
  rfl

theorem isWordWrite_iff (r : Request) :
    isWordWrite r = true ↔ r.direction = .write ∧ bytesOf r = 4 ∧ r.address.toNat % 4 = 0 := by
  rw [isWordWrite, Bool.and_eq_true, Bool.and_eq_true, beq_iff_eq, beq_iff_eq, beq_iff_eq, requestBytes_eq,
    extract_two_eq_zero_iff, and_assoc]

/-! ## The sequence -/

section Governing

variable {s : State} {r : Request} (hm : s.mode = .governing) (ht : ¬TagInUse s r)
include hm ht

theorem decodeRequest_boundary (hg : ¬InOneGranule r) :
    decodeRequest s r = declinedAs none none s.control.globalReport .boundary := by
  simp only [decodeRequest, hm, decodeGoverning, tagTaken_iff, ht, if_false, crossesGranule_iff, hg,
    not_false_eq_true, if_true]

theorem decodeRequest_unmanaged (hg : InOneGranule r) (hw : s.windowFor r.address = none) :
    decodeRequest s r = decodeUnmanaged s r := by
  simp only [decodeRequest, hm, decodeGoverning, tagTaken_iff, ht, if_false, crossesGranule_iff, hg, not_true_eq_false,
    hw]

section Window

variable (hg : InOneGranule r) {w : WindowId} (hw : s.windowFor r.address = some w)
include hg hw

theorem decodeRequest_denied (hp : ¬Permitted (s.win w) r) :
    decodeRequest s r = declinedAs (some w) (some (s.win w).listId) (s.win w).reportDeclines .denied := by
  simp only [decodeRequest, hm, decodeGoverning, tagTaken_iff, ht, if_false, crossesGranule_iff, hg, not_true_eq_false,
    hw, permits_iff, hp]

theorem decodeRequest_permitted (hp : Permitted (s.win w) r) : decodeRequest s r = decodeThrough s r w := by
  simp only [decodeRequest, hm, decodeGoverning, tagTaken_iff, ht, if_false, crossesGranule_iff, hg, not_true_eq_false,
    hw, permits_iff, hp, if_true]

end Window

end Governing

theorem listId_eq (w : Window) : w.listId = if w.kind = .memory then .domain w.domain else .openPath := by
  unfold Window.listId
  cases w.kind <;> rfl

theorem countingList_eq (s : State) (r : Request) :
    countingList s r =
      match s.windowFor r.address with
      | some w => if (s.win w).kind = .memory then some (.domain (s.win w).domain) else none
      | none => none := by
  unfold countingList
  cases s.windowFor r.address with
  | none => rfl
  | some w => cases h : (s.win w).kind <;> simp [h]

/-- Settles O29: the tag check of both modes, and then the sequence of the mode. -/
theorem decodeSequence : Obligations.DecodeSequence := by
  intro s r
  refine ⟨fun ht => ?_, fun ht hm => ?_, fun ht hm hg => ?_, fun ht hm hg => ⟨fun hw => ?_, fun w hw => ?_⟩⟩
  · have htag := (tagTaken_iff s r).mpr ht
    cases hm : s.mode
    · simp only [decodeRequest, hm, decodeTransparent, htag, if_true]
    · simp only [decodeRequest, hm, decodeGoverning, htag, if_true]
  · simp only [decodeRequest, hm, decodeTransparent, tagTaken_iff, ht, if_false, countingList_eq] <;> rfl
  · exact decodeRequest_boundary hm ht hg
  · exact decodeRequest_unmanaged hm ht hg hw
  · refine ⟨fun hp => ?_, fun hp hk => ?_, fun hp hk hx hr hv => ?_, fun hp hk hx => ?_⟩
    · rw [decodeRequest_denied hm ht hg hw hp, listId_eq]
    · rw [decodeRequest_permitted hm ht hg hw hp]
      simp only [decodeThrough, hk, isWordWrite_iff]
      rfl
    · rw [decodeRequest_permitted hm ht hg hw hp]
      simp only [decodeThrough, hk]
      exact if_pos ⟨hx, hr, hv⟩
    · rw [decodeRequest_permitted hm ht hg hw hp]
      simp only [decodeThrough, hk]
      exact if_neg hx

end Sys2Proof.Proofs
end

section
/-! An accepted request that must be held: it is held where room exists, and otherwise declined or STALLED (R47, R80, R81, R94,
R146). -/

namespace Sys2Proof.Proofs

-- One proof after another: the memory of a compile grows with the proofs that run at once.
set_option Elab.async false

open Sys2Proof.Machine Sys2Proof.Claims

theorem room_iff (s : State) (n : InitiatorId) (own : Nat) : s.room n own = true ↔ RoomFor s n own := by
  simp [State.room, State.holdSlotFree, State.quotaFree, RoomFor]

/-- The room test that failed, as the weights of the two (R146, R186). -/
theorem roomFailure_eq (s : State) (n : InitiatorId) :
    roomFailure s n =
      BitVec.ofNat 16
        (weigh 1 (decide (31 ≤ s.heldTotal)) + weigh 2 (decide ((s.init n).quota ≤ (s.init n).heldCount))) := by
  have hslot : decide (31 ≤ s.heldTotal) = !s.holdSlotFree := by
    rw [State.holdSlotFree, ← decide_not, decide_eq_decide, Nat.not_lt]
  have hquota : decide ((s.init n).quota ≤ (s.init n).heldCount) = !s.quotaFree n 0 := by
    rw [State.quotaFree, ← decide_not, decide_eq_decide, Nat.not_lt, Nat.sub_zero]
  rw [hslot, hquota, roomFailure]
  cases s.holdSlotFree <;> cases s.quotaFree n 0 <;> rfl

theorem stallRecord_eq (s : State) (e : Entry) :
    stallRecord s e =
      { plain .stallBegin s.timebase with
        domain := e.domain?, window := e.window, initiator := some e.initiator, tag := e.tag, value := e.address
        detail :=
          BitVec.ofNat 16
            (weigh 1 (decide (31 ≤ s.heldTotal)) +
              weigh 2 (decide ((s.init e.initiator).quota ≤ (s.init e.initiator).heldCount))) } := by
  rw [stallRecord, roomFailure_eq]
  rfl

theorem stallEntry_eq (i : EntryIdx) (e : Entry) (s : State) :
    stallEntry i e s =
      { placeTaken e.initiator (s.setEntry i (some { e with state := .stalled })) with
        stalled := some i, prompts := 0, events := (offer (stallRecord s e) s).events } := by
  simp only [stallEntry, offer_eq]
  rfl

theorem joinList_eq {i : EntryIdx} {e : Entry} {l : ListId} (r : HoldReason) (s : State) (hl : e.list = some l) :
    joinList i e r s =
      (s.setEntry i (some { e with state := .held, reason := some r })).setHeld l (s.held l ++ [i]) := by
  simp only [joinList, hl, State.setEntry_held]

/-- A request that must be held, by the room and by the policy of its window. -/
theorem holdNew_of_room {i : EntryIdx} {e : Entry} {s : State} (r : HoldReason) (h : RoomFor s e.initiator 0) :
    holdNew i e r s = noticed e (r == .wake) (placeTaken e.initiator (joinList i e r s)) := by
  rw [holdNew, if_pos ((room_iff ..).mpr h)]
  rfl

theorem holdNew_of_decline {i : EntryIdx} {e : Entry} {s : State} (r : HoldReason) (h : ¬RoomFor s e.initiator 0)
    (hp : e.policy = .decline) : holdNew i e r s = declinedAt i e .poolFull s := by
  rw [holdNew, if_neg fun hr => h ((room_iff ..).mp hr), hp]
  exact (decline_eq _ (State.entry_setEntry_same s i _)).trans (declinedAt_setEntry i _ e _ s)

theorem holdNew_of_stall {i : EntryIdx} {e : Entry} {s : State} (r : HoldReason) (h : ¬RoomFor s e.initiator 0)
    (hp : e.policy = .stall) : holdNew i e r s = stallEntry i e s := by
  rw [holdNew, if_neg fun hr => h ((room_iff ..).mp hr), hp]

/-- Settles O32: by the room and by the policy, in the state that a steering word leaves. -/
theorem acceptanceHoldsOrStalls : Obligations.AcceptanceHoldsOrStalls := by
  intro s r i reason l hr hp hs hst hi hlow x hx hl e ordered u
  have hexec : exec (.acceptance r) s = .next (holdNew i e reason u) := by
    rw [exec_acceptance_of_accepting hr hp hs hst (lowestFree_eq hi hlow)]
    change Host.Outcome.next (placeNew i e x.decision u) = _
    rw [hx]
    rfl
  obtain ⟨claims, events, hu⟩ : ∃ claims events, u = { ordered with claims := claims, events := events } := by
    change ∃ claims events,
      (match x.word with | some w => takeSteeringWord w r ordered | none => ordered) =
        { ordered with claims := claims, events := events }
    cases x.word with
    | none => exact ⟨_, _, rfl⟩
    | some w => exact takeSteeringWord_frame w r ordered
  have hroom : RoomFor u e.initiator 0 ↔ RoomFor s r.initiator 0 := by rw [hu]; rfl
  rw [hexec]
  refine ⟨fun h => ?_, fun h hpol => ?_, fun h hpol => ?_⟩
  · rw [holdNew_of_room reason (hroom.mpr h), joinList_eq reason u hl]
    have hheld : u.held l = s.held l := by rw [hu]; cases l <;> rfl
    rw [hheld]
    rfl
  · rw [holdNew_of_decline reason (fun hr => h (hroom.mp hr)) hpol]
  · rw [holdNew_of_stall reason (fun hr => h (hroom.mp hr)) hpol, stallEntry_eq, stallRecord_eq]
    have htime : u.timebase = s.timebase := by rw [hu]
    have htotal : u.heldTotal = s.heldTotal := by rw [hu]; rfl
    have hinit : u.init e.initiator = s.init r.initiator := by rw [hu]; rfl
    rw [htime, htotal, hinit]
    rfl

end Sys2Proof.Proofs
end

section
/-! The window record and the domain record: the place of each field, reading and writing (R24, R35, R162, R168, R169, R183,
R184). -/

namespace Sys2Proof.Proofs

-- One proof after another: the memory of a compile grows with the proofs that run at once.
set_option Elab.async false

open Sys2Proof.Machine Sys2Proof.Claims

/-! ## Codes -/

/-- The code of a policy (R183). -/
def policyCode : Policy → BitVec 2
  | .decline => 0
  | .stall => 1

/-- The code of a window kind (R183). -/
def kindCode : WindowKind → BitVec 2
  | .memory => 0
  | .steering => 1

theorem policyOf?_eq_some_iff (x : BitVec 2) (p : Policy) : policyOf? x = some p ↔ x = policyCode p := by
  cases p <;> revert x <;> decide

theorem kindOf?_eq_some_iff (x : BitVec 2) (k : WindowKind) : kindOf? x = some k ↔ x = kindCode k := by
  cases k <;> revert x <;> decide

theorem policyOf?_eq_none_iff (x : BitVec 2) : policyOf? x = none ↔ 2 ≤ x.toNat := by
  revert x; decide

theorem kindOf?_eq_none_iff (x : BitVec 2) : kindOf? x = none ↔ 2 ≤ x.toNat := by
  revert x; decide

theorem policyCode_eq_one_iff (p : Policy) : p = .stall ↔ (policyCode p).toNat = 1 := by
  cases p <;> decide

theorem kindCode_eq_one_iff (k : WindowKind) : k = .steering ↔ (kindCode k).toNat = 1 := by
  cases k <;> decide

theorem domainOf?_eq_some_iff (b : Byte) (d : DomainId) : domainOf? b = some d ↔ b.toNat = d.val := by
  rw [domainOf?, Option.dite_none_right_eq_some]
  simp only [Option.some.injEq, Fin.ext_iff]
  exact ⟨fun ⟨_, h⟩ => h, fun h => ⟨h ▸ d.isLt, h⟩⟩

theorem domainOf?_eq_none_iff (b : Byte) : domainOf? b = none ↔ 8 ≤ b.toNat := by
  rw [domainOf?, dite_eq_right_iff]
  simp

theorem windowOf?_ofNat (w : WindowId) : windowOf? (BitVec.ofNat 8 w.val) = some w := by
  have hw : w.val % 256 = w.val := Nat.mod_eq_of_lt (by omega)
  simp [windowOf?, hw]

theorem windowOf?_eq_none {b : Byte} (h : 16 ≤ b.toNat) : windowOf? b = none := by
  simp [windowOf?, Nat.not_lt.mpr h]

/-! ## Bits and bytes -/

theorem toNat_append_byte {n : Nat} (a : BitVec n) (b : Byte) : (a ++ b).toNat = a.toNat * 256 + b.toNat := by
  rw [BitVec.toNat_append, ← Nat.shiftLeft_add_eq_or_of_lt b.isLt, Nat.shiftLeft_eq]

theorem toNat_append_nibble {n : Nat} (a : BitVec n) (b : BitVec 4) : (a ++ b).toNat = a.toNat * 16 + b.toNat := by
  rw [BitVec.toNat_append, ← Nat.shiftLeft_add_eq_or_of_lt b.isLt, Nat.shiftLeft_eq]

theorem toNat_high_nibble (b : Byte) : (b.extractLsb' 4 4).toNat = b.toNat / 16 := by
  rw [BitVec.extractLsb'_toNat, Nat.shiftRight_eq_div_pow, Nat.mod_eq_of_lt]
  have := b.isLt
  omega

theorem toNat_low_nibble (b : Byte) : (b.extractLsb' 0 4).toNat = b.toNat % 16 := by
  rw [BitVec.extractLsb'_toNat, Nat.shiftRight_zero]

theorem toNat_and_fifteen (b : Byte) : (b &&& 0x0F).toNat = b.toNat % 16 := by
  rw [BitVec.toNat_and]
  exact Nat.and_two_pow_sub_one_eq_mod b.toNat 4

theorem halfBytes_append (a b : Byte) : halfBytes (a ++ b) = [a, b] := by
  rw [halfBytes, BitVec.extractLsb'_append_eq_left, BitVec.extractLsb'_append_eq_right]

theorem append_halves (x : BitVec 16) : x.extractLsb' 8 8 ++ x.extractLsb' 0 8 = x :=
  BitVec.extractLsb'_append_extractLsb'

/-- The base of a window from its bytes, the last of which it shares with the mask. -/
theorem append_base (x y : BitVec 20) :
    x.extractLsb' 12 8 ++ x.extractLsb' 4 8 ++ (x.extractLsb' 0 4 ++ y.extractLsb' 16 4).extractLsb' 4 4 = x := by
  have hhigh : x.extractLsb' 12 8 ++ x.extractLsb' 4 8 = x.extractLsb' 4 16 :=
    BitVec.extractLsb'_append_extractLsb'_eq_extractLsb' rfl
  rw [BitVec.extractLsb'_append_eq_left, hhigh]
  exact BitVec.extractLsb'_append_extractLsb'

theorem append_mask (x y : BitVec 20) :
    (x.extractLsb' 0 4 ++ y.extractLsb' 16 4).extractLsb' 0 4 ++ y.extractLsb' 8 8 ++ y.extractLsb' 0 8 = y := by
  have hhigh : y.extractLsb' 16 4 ++ y.extractLsb' 8 8 = y.extractLsb' 8 12 :=
    BitVec.extractLsb'_append_extractLsb'_eq_extractLsb' rfl
  rw [BitVec.extractLsb'_append_eq_right, hhigh]
  exact BitVec.extractLsb'_append_extractLsb'

theorem flags_of_byte (b : Byte) :
    flag (b.getLsbD 7) ++ flag (b.getLsbD 6) ++ flag (b.getLsbD 5) ++ flag (b.getLsbD 4) ++ flag (b.getLsbD 3) ++
      flag (b.getLsbD 2) ++ flag (b.getLsbD 1) ++ flag (b.getLsbD 0) = b := by
  revert b; decide

/-! ## The window record -/

/-- The bytes of a record describe the window, each field at its place (R183). -/
structure Describes (r : Vector Byte 12) (w : Window) : Prop where
  kind : r[0].extractLsb' 1 2 = kindCode w.kind
  policy : r[0].extractLsb' 3 2 = policyCode w.policy
  domain : r[1].toNat % 16 = w.domain.val
  enable : w.enable = r[0].getLsbD 0
  base : w.base = r[3] ++ r[4] ++ r[5].extractLsb' 4 4
  mask : w.mask = r[5].extractLsb' 0 4 ++ r[6] ++ r[7]
  readPrivileged : w.readPrivileged = r[2].getLsbD 0
  writePrivileged : w.writePrivileged = r[2].getLsbD 1
  readUnprivileged : w.readUnprivileged = r[2].getLsbD 2
  writeUnprivileged : w.writeUnprivileged = r[2].getLsbD 3
  initiatorMask : w.initiatorMask = r[8] ++ r[9]
  wakePermitted : w.wakePermitted = r[2].getLsbD 4
  monitored : w.monitored = r[2].getLsbD 5
  guarded : w.guarded = r[2].getLsbD 6
  reportDeclines : w.reportDeclines = r[2].getLsbD 7
  raisePermitted : w.raisePermitted = r[1].getLsbD 4
  holdLimit : w.holdLimit = r[10] ++ r[11]

theorem windowOfRecord?_eq_some_iff (r : Vector Byte 12) (w : Window) :
    windowOfRecord? r = some w ↔ Describes r w := by
  unfold windowOfRecord?
  constructor
  · intro h
    split at h
    · next kind policy domain hk hp hd =>
      obtain rfl := Option.some.inj h
      rw [kindOf?_eq_some_iff] at hk
      rw [policyOf?_eq_some_iff] at hp
      rw [domainOf?_eq_some_iff, toNat_and_fifteen] at hd
      exact ⟨hk, hp, hd, rfl, rfl, rfl, rfl, rfl, rfl, rfl, rfl, rfl, rfl, rfl, rfl, rfl, rfl⟩
    · cases h
  · rintro ⟨hk, hp, hd, hrest⟩
    rw [← kindOf?_eq_some_iff] at hk
    rw [← policyOf?_eq_some_iff] at hp
    rw [← toNat_and_fifteen, ← domainOf?_eq_some_iff] at hd
    rw [hk, hp, hd]
    cases w
    simp_all

theorem windowOfRecord?_eq_none_iff (r : Vector Byte 12) :
    windowOfRecord? r = none ↔
      2 ≤ (r[0].toNat / 2) % 4 ∨ 2 ≤ (r[0].toNat / 8) % 4 ∨ 8 ≤ r[1].toNat % 16 := by
  have hk := kindOf?_eq_none_iff (r[0].extractLsb' 1 2)
  have hp := policyOf?_eq_none_iff (r[0].extractLsb' 3 2)
  have hd := domainOf?_eq_none_iff (r[1] &&& 0x0F)
  rw [toNat_extract_two] at hk hp
  rw [toNat_and_fifteen] at hd
  rw [show r[0].toNat / 2 = r[0].toNat / 2 ^ 1 from rfl, show r[0].toNat / 8 = r[0].toNat / 2 ^ 3 from rfl, ← hk, ← hp,
    ← hd, windowOfRecord?]
  cases kindOf? (r[0].extractLsb' 1 2) <;> cases policyOf? (r[0].extractLsb' 3 2) <;>
    cases domainOf? (r[1] &&& 0x0F) <;> simp

theorem window_bytes_eq (w : Window) :
    w.bytes =
      [ (0 : BitVec 3) ++ policyCode w.policy ++ kindCode w.kind ++ flag w.enable,
        (0 : BitVec 3) ++ flag w.raisePermitted ++ BitVec.ofNat 4 w.domain.val,
        flag w.reportDeclines ++ flag w.guarded ++ flag w.monitored ++ flag w.wakePermitted
          ++ flag w.writeUnprivileged ++ flag w.readUnprivileged ++ flag w.writePrivileged ++ flag w.readPrivileged,
        w.base.extractLsb' 12 8, w.base.extractLsb' 4 8, w.base.extractLsb' 0 4 ++ w.mask.extractLsb' 16 4,
        w.mask.extractLsb' 8 8, w.mask.extractLsb' 0 8 ]
      ++ halfBytes w.initiatorMask ++ halfBytes w.holdLimit := by
  unfold Window.bytes
  cases w.policy <;> cases w.kind <;> rfl

/-! ## What is read is what was written -/

/-- The first byte of a record: the codes of the window's kind and policy, and its enable flag. -/
theorem head_fields (p : Policy) (k : WindowKind) (e : Bool) :
    let b : Byte := (0 : BitVec 3) ++ policyCode p ++ kindCode k ++ flag e
    b.extractLsb' 1 2 = kindCode k ∧ b.extractLsb' 3 2 = policyCode p ∧ e = b.getLsbD 0 := by
  cases p <;> cases k <;> cases e <;> decide

/-- The second byte: the domain's number, and RAISE permitted. -/
theorem second_fields (x : Bool) (d : DomainId) :
    let b : Byte := (0 : BitVec 3) ++ flag x ++ BitVec.ofNat 4 d.val
    b.toNat % 16 = d.val ∧ x = b.getLsbD 4 := by
  cases x <;> revert d <;> decide

/-- The third byte: eight flags. -/
theorem flag_fields (f₇ f₆ f₅ f₄ f₃ f₂ f₁ f₀ : Bool) :
    let b : Byte := flag f₇ ++ flag f₆ ++ flag f₅ ++ flag f₄ ++ flag f₃ ++ flag f₂ ++ flag f₁ ++ flag f₀
    f₀ = b.getLsbD 0 ∧ f₁ = b.getLsbD 1 ∧ f₂ = b.getLsbD 2 ∧ f₃ = b.getLsbD 3 ∧ f₄ = b.getLsbD 4 ∧ f₅ = b.getLsbD 5 ∧
      f₆ = b.getLsbD 6 ∧ f₇ = b.getLsbD 7 := by
  revert f₇ f₆ f₅ f₄ f₃ f₂ f₁ f₀; decide

theorem describes_of_bytes {r : Vector Byte 12} {w : Window} (h : r.toList = w.bytes) : Describes r w := by
  rw [window_bytes_eq] at h
  obtain ⟨hkind, hpolicy, henable⟩ := head_fields w.policy w.kind w.enable
  obtain ⟨hdomain, hraise⟩ := second_fields w.raisePermitted w.domain
  obtain ⟨h0, h1, h2, h3, h4, h5, h6, h7⟩ := flag_fields w.reportDeclines w.guarded w.monitored w.wakePermitted
    w.writeUnprivileged w.readUnprivileged w.writePrivileged w.readPrivileged
  obtain ⟨⟨l⟩, hl⟩ := r
  subst h
  exact ⟨hkind, hpolicy, hdomain, henable, (append_base w.base w.mask).symm, (append_mask w.base w.mask).symm, h0, h1,
    h2, h3, (append_halves w.initiatorMask).symm, h4, h5, h6, h7, hraise, (append_halves w.holdLimit).symm⟩

theorem head_of_fields (b : Byte) :
    (0 : BitVec 3) ++ b.extractLsb' 3 2 ++ b.extractLsb' 1 2 ++ flag (b.getLsbD 0) = b &&& 0x1F := by
  revert b; decide

theorem second_of_fields (b : Byte) :
    (0 : BitVec 3) ++ flag (b.getLsbD 4) ++ BitVec.ofNat 4 (b.toNat % 16) = b &&& 0x1F := by
  revert b; decide

/-- The five bytes that the base and the mask of a window share. -/
theorem extract_base_mask (a b c d e : Byte) :
    let base : BitVec 20 := a ++ b ++ c.extractLsb' 4 4
    let mask : BitVec 20 := c.extractLsb' 0 4 ++ d ++ e
    base.extractLsb' 12 8 = a ∧ base.extractLsb' 4 8 = b ∧ base.extractLsb' 0 4 ++ mask.extractLsb' 16 4 = c ∧
      mask.extractLsb' 8 8 = d ∧ mask.extractLsb' 0 8 = e := by
  intro base mask
  have hlow : base.extractLsb' 0 4 = c.extractLsb' 4 4 := BitVec.extractLsb'_append_eq_right
  have hhigh : mask.extractLsb' 16 4 = c.extractLsb' 0 4 :=
    (BitVec.extractLsb'_append_eq_of_le (by decide)).trans BitVec.extractLsb'_append_eq_left
  refine ⟨(BitVec.extractLsb'_append_eq_of_le (by decide)).trans BitVec.extractLsb'_append_eq_left,
    (BitVec.extractLsb'_append_eq_of_le (by decide)).trans BitVec.extractLsb'_append_eq_right, ?_,
    (BitVec.extractLsb'_append_eq_of_le (by decide)).trans BitVec.extractLsb'_append_eq_right,
    BitVec.extractLsb'_append_eq_right⟩
  rw [hlow, hhigh]
  exact BitVec.extractLsb'_append_extractLsb'

theorem record_toList (r : Vector Byte 12) :
    r.toList = [r[0], r[1], r[2], r[3], r[4], r[5], r[6], r[7], r[8], r[9], r[10], r[11]] := by
  refine List.ext_getElem (by simp) fun k hk _ => ?_
  rw [Vector.length_toList] at hk
  interval_cases k <;> rfl

theorem Describes.bytes_eq {r : Vector Byte 12} {w : Window} (h : Describes r w) :
    w.bytes = (r[0] &&& 0x1F) :: (r[1] &&& 0x1F) :: r.toList.drop 2 := by
  obtain ⟨h3, h4, h5, h6, h7⟩ := extract_base_mask r[3] r[4] r[5] r[6] r[7]
  rw [window_bytes_eq, ← h.kind, ← h.policy, ← h.domain, h.enable, h.raisePermitted, h.reportDeclines, h.guarded,
    h.monitored, h.wakePermitted, h.writeUnprivileged, h.readUnprivileged, h.writePrivileged, h.readPrivileged, h.base,
    h.mask, h.initiatorMask, h.holdLimit, head_of_fields, second_of_fields, flags_of_byte, h3, h4, h5, h6, h7,
    halfBytes_append, halfBytes_append, record_toList]
  rfl

theorem pin_fields (l : Level) (p : Pin) (x : Bool) :
    let b : Byte := (0 : BitVec 3) ++ ((0 : BitVec 1) ++ l.value) ++ p.value ++ flag x
    pinOf? (b.extractLsb' 1 2) = some p ∧ pinLevelOf? (b.extractLsb' 3 2) = some l ∧ b.getLsbD 0 = x := by
  cases l <;> cases p <;> cases x <;> decide

/-- The configuration bytes of a domain read as its configuration, where R24 permits it (R184). -/
theorem configOf?_configBytes {r : Vector Byte 8} {x : Domain} (h : r.toList = x.configBytes)
    (hlo : 1 ≤ x.ackLimit.toNat) (hhi : x.ackLimit.toNat ≤ 4095)
    (hoff : ¬(x.pin = .holdLow ∧ x.pinLevel = .off ∧ x.discardable = false)) :
    configOf? r = some ⟨x.idleLimit, x.deepLimit, x.ackLimit, x.discardable, x.pin, x.pinLevel⟩ := by
  obtain ⟨hpin, hlevel, hdiscardable⟩ := pin_fields x.pinLevel x.pin x.discardable
  have hack : ¬(x.ackLimit = 0 ∨ Config.maxAckLimit < x.ackLimit.toNat) := by
    rintro (hz | hz)
    · simp [hz] at hlo
    · exact absurd hhi (Nat.not_le.mpr hz)
  have hbytes : r[0] ++ r[1] = x.idleLimit ∧ r[2] ++ r[3] = x.deepLimit ∧ r[4] ++ r[5] = x.ackLimit ∧
      r[6] = (0 : BitVec 3) ++ ((0 : BitVec 1) ++ x.pinLevel.value) ++ x.pin.value ++ flag x.discardable := by
    obtain ⟨⟨l⟩, hl⟩ := r
    subst h
    exact ⟨append_halves _, append_halves _, append_halves _, rfl⟩
  obtain ⟨hidle, hdeep, hacks, hsix⟩ := hbytes
  simp only [configOf?, hsix, hpin, hlevel, hdiscardable, hidle, hdeep, hacks, if_neg hack, if_neg hoff]

/-- Settles O13: the bytes of a window describe it, bytes that describe a window are its own but for the unused bits, and the
configuration bytes of a domain read as its configuration. -/
theorem recordsReadBackAsWritten : Obligations.RecordsReadBackAsWritten :=
  ⟨fun _ _ h => (windowOfRecord?_eq_some_iff _ _).mpr (describes_of_bytes h),
    fun _ _ h => ((windowOfRecord?_eq_some_iff _ _).mp h).bytes_eq, fun _ _ => configOf?_configBytes⟩

/-! ## READ WINDOW and WRITE WINDOW -/

theorem exec_readWindow_def (s : State) (b : Byte) : exec (.readWindow b) s = execReadWindow b s := rfl

theorem exec_writeWindow_def (s : State) (b : Byte) (r : Vector Byte 12) :
    exec (.writeWindow b r) s = execWriteWindow b r s := rfl

section ReadWindow

variable {s : State} (hf : s.awaits (some .readWindow) = true)
include hf

theorem exec_readWindow_refused {b : Byte} (hb : 16 ≤ b.toNat) :
    exec (.readWindow b) s = .next (answered [0x02] s) := by
  simp [exec_readWindow_def, execReadWindow, hf, windowOf?_eq_none hb, reply_eq_answered, Status.value]

theorem exec_readWindow (w : WindowId) :
    exec (.readWindow (BitVec.ofNat 8 w.val)) s = .next (answered (0x00 :: (s.win w).bytes) s) := by
  simp only [exec_readWindow_def, execReadWindow, inFrame_open hf, windowOf?_ofNat, reply_eq_answered, Status.value]

end ReadWindow

section WriteWindow

variable {s : State} (hf : s.awaits (some .writeWindow) = true)
include hf

theorem exec_writeWindow_refused {b : Byte} (hb : 16 ≤ b.toNat) (r : Vector Byte 12) :
    exec (.writeWindow b r) s = .next (answered [0x02] s) := by
  simp [exec_writeWindow_def, execWriteWindow, hf, windowOf?_eq_none hb, reply_eq_answered, Status.value]

theorem exec_writeWindow_of_none (w : WindowId) {r : Vector Byte 12} (hr : windowOfRecord? r = none) :
    exec (.writeWindow (BitVec.ofNat 8 w.val) r) s = .next (answered [0x03] s) := by
  simp only [exec_writeWindow_def, execWriteWindow, inFrame_open hf, windowOf?_ofNat, hr, reply_eq_answered,
    Status.value]

theorem exec_writeWindow_of_some (w : WindowId) {r : Vector Byte 12} {x : Window} (hr : windowOfRecord? r = some x) :
    exec (.writeWindow (BitVec.ofNat 8 w.val) r) s = .next (answered [0x00] (s.setWin w x)) := by
  simp only [exec_writeWindow_def, execWriteWindow, inFrame_open hf, windowOf?_ofNat, hr, reply_eq_answered,
    Status.value]

end WriteWindow

/-- Settles O14: the codes that have no meaning, each field at its place, and the two commands by the window and the
record. -/
theorem windowRecordFields : Obligations.WindowRecordFields := by
  refine ⟨windowOfRecord?_eq_none_iff, fun r w hw => ?_, fun s =>
    ⟨fun hf => ⟨fun b => exec_readWindow_refused hf, exec_readWindow hf⟩,
      fun hf => ⟨fun b r hb => exec_writeWindow_refused hf hb r, fun w =>
        ⟨fun r => exec_writeWindow_of_none hf w, fun r x => exec_writeWindow_of_some hf w⟩⟩⟩⟩
  have h := (windowOfRecord?_eq_some_iff r w).mp hw
  refine ⟨h.enable, ?_, ?_, h.domain.symm, h.raisePermitted, h.readPrivileged, h.writePrivileged, h.readUnprivileged,
    h.writeUnprivileged, h.wakePermitted, h.monitored, h.guarded, h.reportDeclines, ?_, ?_, ?_, ?_⟩
  · rw [kindCode_eq_one_iff, ← h.kind, toNat_extract_two]
    rfl
  · rw [policyCode_eq_one_iff, ← h.policy, toNat_extract_two]
    rfl
  · rw [h.base, toNat_append_nibble, toNat_append_byte, toNat_high_nibble]
    omega
  · rw [h.mask, toNat_append_byte, toNat_append_byte, toNat_low_nibble]
    omega
  · rw [h.initiatorMask, toNat_append_byte]
  · rw [h.holdLimit, toNat_append_byte]

end Sys2Proof.Proofs
end

section
/-! The laws of the hold pool: what they read of State, and what keeps them when one entry of the table changes (R57, R60, R78,
R80, R81, R84, R94). -/

namespace Sys2Proof.Machine

-- One proof after another: the memory of a compile grows with the proofs that run at once.
set_option Elab.async false

open Sys2Proof.Claims Sys2Proof.Proofs

/-! ## What the laws read -/

/-- What the laws of the hold pool read of State. -/
structure Pool where
  table : Vector (Option Entry) 64
  nextOrder : Nat
  stage : Option EntryIdx
  domainLists : Vector (List EntryIdx) 8
  openList : List EntryIdx
  stalled : Option EntryIdx
  holdBudget : Nat
  heldCount : InitiatorId → Nat

def State.pool (s : State) : Pool where
  table := s.table
  nextOrder := s.nextOrder
  stage := s.stage
  domainLists := s.domainLists
  openList := s.openList
  stalled := s.stalled
  holdBudget := s.holdBudget
  heldCount n := (s.init n).heldCount

theorem poolKept_of_pool {s t : State} (h : t.pool = s.pool) (hs : PoolKept s) : PoolKept t := by
  cases s
  cases t
  simp only [State.pool, Pool.mk.injEq] at h
  obtain ⟨rfl, rfl, rfl, rfl, rfl, rfl, rfl, hcount⟩ := h
  obtain ⟨horder, hlists, hsingles, ⟨htotal, hbudget, hheld⟩, hcodes⟩ := hs
  exact ⟨horder, hlists, hsingles, ⟨htotal, hbudget, fun n => (congrFun hcount n).trans (hheld n)⟩, hcodes⟩

theorem held_of_pool {s t : State} {table : Vector (Option Entry) 64} (h : t.pool = { s.pool with table := table })
    (l : ListId) : t.held l = s.held l := by
  cases l with
  | domain d => exact congrArg (fun p : Pool => p.domainLists[d]) h
  | openPath => exact congrArg Pool.openList h

theorem State.entryIn_eq_any (s : State) (i : EntryIdx) (x : EntryState) :
    s.entryIn i x = (s.entry i).any (fun e => e.state == x) := by
  unfold State.entryIn
  cases s.entry i <;> rfl

/-! ## One entry changes -/

/-- The entry waits for its issue: in the decode stage, in a hold list or in the stall slot (R58). -/
def Entry.waits (e : Entry) : Bool :=
  e.state == .passing || e.state == .held || e.state == .stalled

/-- The entry stands in the hold list (R81). -/
def Entry.stands (l : ListId) (e : Entry) : Bool :=
  e.state == .held && e.list == some l

theorem any_stands_iff {x : Option Entry} {l : ListId} :
    x.any (Entry.stands l) = true ↔ ∃ e, x = some e ∧ e.state = .held ∧ e.list = some l := by
  cases x <;> simp [Entry.stands]

/-- The entry may come to stand at the index: its place in the order of acceptance is its own; it is older than the entry
that is STALLED or PASSING elsewhere, and where it waits itself it is the youngest. -/
structure Fits (i : EntryIdx) (e : Entry) (s : State) : Prop where
  placed : e.order < s.nextOrder
  distinct : ∀ j ≠ i, ∀ f ∈ s.entry j, f.order ≠ e.order
  older : ∀ j ≠ i, ∀ f ∈ s.entry j, (f.state = .stalled ∨ f.state = .passing) → e.order < f.order
  youngest : e.waits = true → ∀ j ≠ i, ∀ f ∈ s.entry j, f.order < e.order
  listed : e.state = .held ∨ e.state = .stalled → e.list.isSome = true
  room : e.state = .held → s.heldTotal < 31
  coded : e.state = .declining → e.code.isSome = true

/-- The lists, the stall slot, the decode stage and the counts of `t` are those of `s` with `x` in the place of what stands at
the index in `s`. -/
structure Booked (i : EntryIdx) (x : Option Entry) (s t : State) : Prop where
  nextOrder : t.nextOrder = s.nextOrder
  held : ∀ l, t.held l = (s.held l).filter (fun j => j != i) ++ if x.any (Entry.stands l) then [i] else []
  stalled : t.stalled = if x.any (fun e => e.state == .stalled) then some i else s.stalled.filter (fun j => j != i)
  stage : t.stage = if x.any (fun e => e.state == .passing) then some i else s.stage.filter (fun j => j != i)
  budget : t.holdBudget + ((s.entry i).any Entry.inPool).toNat = s.holdBudget + (x.any Entry.inPool).toNat
  heldCount : ∀ n, (t.init n).heldCount + ((s.entry i).any fun e => e.inPool && e.initiator == n).toNat =
    (s.init n).heldCount + (x.any fun e => e.inPool && e.initiator == n).toNat

/-- The table has `x` at the index; the rest of what the laws read is as it was. -/
structure Puts (i : EntryIdx) (x : Option Entry) (s t : State) : Prop where
  entry : ∀ j, t.entry j = if j = i then x else s.entry j
  rest : t.pool = { s.pool with table := t.table }

theorem Puts.of_pool {i : EntryIdx} {x : Option Entry} {s t u : State} (h : Puts i x s t) (hu : u.pool = t.pool) :
    Puts i x s u := by
  have htable : u.table = t.table := congrArg Pool.table hu
  refine ⟨fun j => ?_, by rw [hu, h.rest, htable]⟩
  rw [← h.entry, State.entry, State.entry, htable]

theorem Booked.of_puts {i : EntryIdx} {x y : Option Entry} {s t u : State} (h : Booked i x s u) (hp : Puts i y u t) :
    Booked i x s t where
  nextOrder := (congrArg Pool.nextOrder hp.rest).trans h.nextOrder
  held l := (held_of_pool hp.rest l).trans (h.held l)
  stalled := (congrArg Pool.stalled hp.rest).trans h.stalled
  stage := (congrArg Pool.stage hp.rest).trans h.stage
  budget := (congrArg (fun p : Pool => p.holdBudget + _) hp.rest).trans h.budget
  heldCount n := (congrArg (fun p : Pool => p.heldCount n + _) hp.rest).trans (h.heldCount n)

/-! ## Each law with the entry replaced -/

section Replaced

variable {i : EntryIdx} {x : Option Entry} {s t : State}

theorem replaced_cases (he : ∀ j, t.entry j = if j = i then x else s.entry j) {j : EntryIdx} {e : Entry}
    (hj : t.entry j = some e) : (j = i ∧ x = some e) ∨ (j ≠ i ∧ s.entry j = some e) := by
  rw [he] at hj
  split at hj
  · exact .inl ⟨‹_›, hj⟩
  · exact .inr ⟨‹_›, hj⟩

variable (h : PoolKept s) (hfit : ∀ e ∈ x, Fits i e s) (hb : Booked i x s t)
  (he : ∀ j, t.entry j = if j = i then x else s.entry j)
include h hfit hb he

theorem orderKept_of_booked : OrderKept t := by
  obtain ⟨⟨hplaced, hdistinct⟩, _⟩ := h
  refine ⟨fun j e hj => ?_, fun j k hjk e hj f hk => ?_⟩
  · rw [hb.nextOrder]
    rcases replaced_cases he hj with ⟨-, hx⟩ | ⟨-, hj⟩
    · exact (hfit e hx).placed
    · exact hplaced j e hj
  · rcases replaced_cases he hj with ⟨rfl, hx⟩ | ⟨hji, hj⟩
    · have hk := (replaced_cases he hk).resolve_left fun hi => hjk hi.1.symm
      exact ((hfit e hx).distinct k hk.1 f hk.2).symm
    · rcases replaced_cases he hk with ⟨rfl, hx⟩ | ⟨-, hk⟩
      · exact (hfit f hx).distinct j hji e hj
      · exact hdistinct j k hjk e hj f hk

theorem listsKept_of_booked : ListsKept t := by
  obtain ⟨_, ⟨hlive, hlisted, hsorted⟩, _⟩ := h
  refine ⟨fun l hl k hk => ?_, fun k e hk hs => ?_, fun l hl => ?_⟩
  · rw [hb.held, List.mem_append, List.mem_filter] at hk
    rcases hk with ⟨hk, hne⟩ | hk
    · rw [he, if_neg (by simpa using hne)]
      exact hlive l hl k hk
    · split at hk
      · next hx =>
        obtain rfl := List.mem_singleton.mp hk
        obtain ⟨e, rfl, hstands⟩ := any_stands_iff.mp hx
        exact ⟨e, by rw [he, if_pos rfl]; rfl, hstands⟩
      · cases hk
  · rcases replaced_cases he hk with ⟨rfl, rfl⟩ | ⟨hne, hk⟩
    · obtain ⟨l, hl⟩ := Option.isSome_iff_exists.mp ((hfit e rfl).listed (.inl hs))
      refine ⟨l, hl, ?_⟩
      rw [hb.held]
      simp [Entry.stands, hs, hl]
    · obtain ⟨l, hl, hin⟩ := hlisted k e hk hs
      refine ⟨l, hl, ?_⟩
      rw [hb.held]
      exact List.mem_append_left _ (List.mem_filter.mpr ⟨hin, by simpa using hne⟩)
  · have horder : ∀ k ≠ i, t.orderOf k = s.orderOf k := fun k hk => by
      rw [State.orderOf, he, if_neg hk, State.orderOf]
    rw [hb.held, List.pairwise_append]
    refine ⟨((hsorted l hl).filter _).imp_of_mem fun {j k} hj hk hlt => ?_, ?_, fun j hj k hk => ?_⟩
    · rw [horder j (by simpa using (List.mem_filter.mp hj).2), horder k (by simpa using (List.mem_filter.mp hk).2)]
      exact hlt
    · split <;> simp
    · split at hk
      · next hx =>
        obtain rfl := List.mem_singleton.mp hk
        obtain ⟨hj, hne⟩ := List.mem_filter.mp hj
        have hne : j ≠ k := by simpa using hne
        obtain ⟨f, hf, -⟩ := hlive l hl j hj
        obtain ⟨e, rfl, hs, -⟩ := any_stands_iff.mp hx
        have hlt := (hfit e rfl).youngest (by simp [Entry.waits, hs]) j hne f hf
        rw [horder j hne, State.orderOf, State.orderOf, he, if_pos rfl, Option.mem_def.mp hf]
        exact hlt
      · cases hk

omit h hb in
/-- The slot that names the one entry in a state, STALLED or PASSING, names it after the replacement. -/
theorem seat_of_booked {y : EntryState} (hy : y = .stalled ∨ y = .passing) {o p : Option EntryIdx}
    (ho : ∀ j, o = some j ↔ s.entryIn j y = true)
    (hp : p = if x.any (fun e => e.state == y) then some i else o.filter (fun j => j != i)) (j : EntryIdx) :
    p = some j ↔ t.entryIn j y = true := by
  have hin : t.entryIn j y = if j = i then x.any (fun e => e.state == y) else s.entryIn j y := by
    rw [State.entryIn_eq_any, he, State.entryIn_eq_any]
    split <;> rfl
  rw [hp, hin]
  cases hx : x.any (fun e => e.state == y) with
  | false =>
    by_cases hj : j = i
    · simp [hj, Option.filter_eq_some_iff]
    · simp [hj, Option.filter_eq_some_iff, ho]
  | true =>
    by_cases hj : j = i
    · simp [hj]
    · obtain ⟨e, rfl, hs⟩ : ∃ e, x = some e ∧ e.state = y := by cases x <;> simp_all
      have hnot : s.entryIn j y = false := by
        rw [State.entryIn_eq_any]
        by_contra hany
        obtain ⟨f, hf, hfs⟩ : ∃ f, s.entry j = some f ∧ f.state = y := by cases hf : s.entry j <;> simp_all
        have hold := (hfit e rfl).older j hj f hf (hfs ▸ hy)
        have hyoung := (hfit e rfl).youngest (by rcases hy with rfl | rfl <;> simp [Entry.waits, hs]) j hj f hf
        omega
      simp [hj, Ne.symm hj, hnot]

theorem singlesKept_of_booked : SinglesKept t := by
  obtain ⟨_, _, ⟨hstalled, hlist, hstage, hyoungest⟩, _⟩ := h
  refine ⟨seat_of_booked hfit he (.inl rfl) hstalled hb.stalled, fun j e hj hs => ?_,
    seat_of_booked hfit he (.inr rfl) hstage hb.stage, fun j k hjk e hj hs f hk => ?_⟩
  · rcases replaced_cases he hj with ⟨-, hx⟩ | ⟨-, hj⟩
    · exact (hfit e hx).listed (.inr hs)
    · exact hlist j e hj hs
  · rcases replaced_cases he hj with ⟨rfl, hx⟩ | ⟨hji, hj⟩
    · have hk := (replaced_cases he hk).resolve_left fun hi => hjk hi.1.symm
      exact (hfit e hx).youngest (by rcases hs with hs | hs <;> simp [Entry.waits, hs]) k hk.1 f hk.2
    · rcases replaced_cases he hk with ⟨rfl, hx⟩ | ⟨-, hk⟩
      · exact (hfit f hx).older j hji e hj hs
      · exact hyoungest j k hjk e hj hs f hk

omit h hfit he in
/-- Only an entry that comes to be HELD makes the lists longer, and by one. -/
theorem heldTotal_le_of_booked : t.heldTotal ≤ s.heldTotal + (x.any fun e => e.state == .held).toNat := by
  have hsum : ∀ ls : List ListId, (ls.map fun l => (t.held l).length).sum ≤
      (ls.map fun l => (s.held l).length).sum + ls.countP fun l => x.any (Entry.stands l) := fun ls => by
    induction ls with
    | nil => simp
    | cons l ls ih =>
      have hfilter := List.length_filter_le (fun j => j != i) (s.held l)
      rw [List.map_cons, List.sum_cons, List.map_cons, List.sum_cons, List.countP_cons, hb.held, List.length_append]
      split <;> simp only [List.length_cons, List.length_nil] <;> omega
  refine (hsum allLists).trans (Nat.add_le_add_left ?_ _)
  cases x with
  | none => simp
  | some e =>
    cases hs : e.state == .held with
    | false => simp [Entry.stands, hs]
    | true =>
      have hone : ∀ l, allLists.count l ≤ 1 := List.nodup_iff_count_le_one.mp (by decide)
      cases hl : e.list with
      | none => simp [Entry.stands, hl]
      | some l =>
        rw [Option.any_some, hs, Bool.toNat_true]
        refine le_of_eq_of_le (List.countP_congr (q := (· == l)) fun k _ => ?_) (hone l)
        rw [Option.any_some, Entry.stands, hs, hl, Bool.true_and, beq_iff_eq, beq_iff_eq, Option.some.injEq, eq_comm]

theorem budgetKept_of_booked : BudgetKept t := by
  obtain ⟨_, _, _, ⟨htotal, hbudget, hheld⟩, _⟩ := h
  refine ⟨?_, ?_, fun n => ?_⟩
  · have hle := heldTotal_le_of_booked hb
    cases hx : x.any fun e => e.state == .held with
    | false => rw [hx] at hle; exact hle.trans htotal
    | true =>
      obtain ⟨e, rfl, hs⟩ : ∃ e, x = some e ∧ e.state = .held := by cases x <;> simp_all
      have hroom := (hfit e rfl).room hs
      rw [hx, Bool.toNat_true] at hle
      omega
  · have hcount := countEntries_replace he Entry.inPool
    have := hb.budget
    omega
  · have hcount := countEntries_replace he fun e => e.inPool && e.initiator == n
    have hn := hheld n
    have := hb.heldCount n
    omega

omit hb in
theorem codesKept_of_booked : CodesKept t := by
  obtain ⟨_, _, _, _, hcodes⟩ := h
  intro j e hj hs
  rcases replaced_cases he hj with ⟨-, hx⟩ | ⟨-, hj⟩
  · exact (hfit e hx).coded hs
  · exact hcodes j e hj hs

/-- The laws of the hold pool are kept where an entry that fits takes the place of another, or a place is freed. -/
theorem poolKept_of_booked : PoolKept t :=
  ⟨orderKept_of_booked h hfit hb he, listsKept_of_booked h hfit hb he, singlesKept_of_booked h hfit hb he,
    budgetKept_of_booked h hfit hb he, codesKept_of_booked h hfit he⟩

end Replaced

end Sys2Proof.Machine
end

section
/-! Every move of an entry keeps the laws of the hold pool: joining, leaving, passing, issue, decline and the freeing of a place
(R60, R63, R78, R81, R82, R84, R94, R97, R99). -/

namespace Sys2Proof.Machine

-- One proof after another: the memory of a compile grows with the proofs that run at once.
set_option Elab.async false

open Sys2Proof.Claims Sys2Proof.Proofs

/-! ## What the operations put at an index -/

theorem puts_freeEntry (i : EntryIdx) (s : State) : Puts i none s (freeEntry i s) := by
  refine ⟨fun j => freeEntry_entry i j s, ?_⟩
  obtain ⟨_, _, h⟩ := freeEntry_frame i s
  rw [h]
  rfl

theorem puts_countIn (i : EntryIdx) (f : Entry) (s : State) :
    Puts i (some f.countedIn) s (countIn i (s.setEntry i (some f))) := by
  refine ⟨fun j => ?_, ?_⟩
  · rw [countIn_entry, State.entry_setEntry_same, State.entry_setEntry]
    split <;> rfl
  · obtain ⟨_, _, h⟩ := countIn_frame i (s.setEntry i (some f))
    rw [h]
    rfl

theorem puts_issueEntry (i : EntryIdx) (e : Entry) (s : State) :
    Puts i (some (Entry.countedIn { e with state := .issued, data := [] })) s (issueEntry i e s) :=
  (puts_countIn i _ s).of_pool rfl

theorem puts_passEntry (i : EntryIdx) (e : Entry) (s : State) :
    Puts i (some (Entry.countedIn { e with state := .passing })) { s with stage := some i } (passEntry i e s) :=
  puts_countIn i { e with state := .passing } { s with stage := some i }

theorem puts_decline {i : EntryIdx} {e : Entry} {s : State} (c : DeclineCode) (he : s.entry i = some e) :
    Puts i (some (e.declined c)) s (decline i c s) := by
  refine ⟨fun j => ?_, ?_⟩
  · rw [decline_entry, he]
    rfl
  · obtain ⟨_, _, h⟩ := decline_frame i c s
    rw [h]
    rfl

theorem puts_joinList {i : EntryIdx} {e : Entry} {l : ListId} (r : HoldReason) (s : State) (hl : e.list = some l) :
    Puts i (some { e with state := .held, reason := some r }) (s.setHeld l (s.held l ++ [i])) (joinList i e r s) := by
  rw [joinList_eq r s hl]
  refine ⟨fun j => ?_, by cases l <;> rfl⟩
  rw [State.setHeld_entry, State.setHeld_entry, State.entry_setEntry]

theorem Puts.takePlace {i : EntryIdx} {x : Option Entry} {s t : State} (h : Puts i x s t) (n : InitiatorId) :
    Puts i x (takePlace n s) (takePlace n t) := by
  have hcount : ∀ u : State, (Machine.takePlace n u).pool =
      { u.pool with
        holdBudget := u.holdBudget + 1
        heldCount := fun m => if m = n then u.pool.heldCount n + 1 else u.pool.heldCount m } := fun u => by
    refine congrArg (Pool.mk _ _ _ _ _ _ _) (funext fun m => ?_)
    refine (congrArg Initiator.heldCount (State.init_setInit u m n _)).trans ?_
    split <;> rfl
  refine ⟨h.entry, ?_⟩
  rw [hcount, hcount, h.rest]
  have hbudget : t.holdBudget = s.holdBudget := congrArg Pool.holdBudget h.rest
  rw [hbudget]
  rfl

theorem puts_stallEntry (i : EntryIdx) (e : Entry) (s : State) :
    Puts i (some { e with state := .stalled }) { takePlace e.initiator s with stalled := some i } (stallEntry i e s) := by
  rw [stallEntry_eq]
  exact ⟨fun j => State.entry_setEntry s j i _, rfl⟩

/-! ## What the laws say of the pool's slots and counts -/

section Seats

variable {s : State} {i : EntryIdx}

theorem filter_held_eq (h : PoolKept s) (hi : ∀ e ∈ s.entry i, e.state ≠ .held) (l : ListId) :
    (s.held l).filter (fun j => j != i) = s.held l := by
  refine List.filter_eq_self.mpr fun j hj => ?_
  obtain ⟨e, he, hs, -⟩ := held_live h hj
  rw [bne_iff_ne]
  rintro rfl
  exact hi e he hs

theorem filter_seat_eq {y : EntryState} {o : Option EntryIdx} (ho : ∀ j, o = some j ↔ s.entryIn j y = true)
    (hi : ∀ e ∈ s.entry i, e.state ≠ y) : o.filter (fun j => j != i) = o := by
  have hne : o ≠ some i := fun hj => by
    have hin := (ho i).mp hj
    rw [State.entryIn_eq_any] at hin
    cases he : s.entry i with
    | none => simp [he] at hin
    | some e => exact hi e he (by simpa [he] using hin)
  cases o <;> simp_all [Option.filter]

theorem filter_stalled_eq (h : PoolKept s) (hi : ∀ e ∈ s.entry i, e.state ≠ .stalled) :
    s.stalled.filter (fun j => j != i) = s.stalled := by
  obtain ⟨_, _, ⟨hstalled, _⟩, _⟩ := h
  exact filter_seat_eq hstalled hi

theorem filter_stage_eq (h : PoolKept s) (hi : ∀ e ∈ s.entry i, e.state ≠ .passing) :
    s.stage.filter (fun j => j != i) = s.stage := by
  obtain ⟨_, _, ⟨_, _, hstage, _⟩, _⟩ := h
  exact filter_seat_eq hstage hi

/-- An entry of the pool has its place in the hold budget and in its initiator's held count (R78, R84). -/
theorem place_taken (h : PoolKept s) {e : Entry} (he : s.entry i = some e) (hp : e.inPool = true) :
    0 < s.holdBudget ∧ 0 < (s.init e.initiator).heldCount := by
  obtain ⟨_, _, _, ⟨_, hbudget, hheld⟩, _⟩ := h
  rw [hbudget, hheld]
  exact ⟨List.countP_pos_iff.mpr ⟨i, List.mem_finRange i, by simp [he, hp]⟩,
    List.countP_pos_iff.mpr ⟨i, List.mem_finRange i, by simp [he, hp]⟩⟩

theorem givePlace_heldCount (n m : InitiatorId) (s : State) :
    ((givePlace n s).init m).heldCount = (s.init m).heldCount - (n == m).toNat := by
  refine (congrArg Initiator.heldCount (State.init_setInit s m n _)).trans ?_
  by_cases hm : m = n
  · simp [hm]
  · simp [hm, beq_eq_false_iff_ne.mpr (Ne.symm hm)]

theorem takePlace_heldCount (n m : InitiatorId) (s : State) :
    ((takePlace n s).init m).heldCount = (s.init m).heldCount + (n == m).toNat := by
  refine (congrArg Initiator.heldCount (State.init_setInit s m n _)).trans ?_
  by_cases hm : m = n
  · simp [hm]
  · simp [hm, beq_eq_false_iff_ne.mpr (Ne.symm hm)]

/-- A place given up by an entry of the pool is one fewer in both counts. -/
theorem givePlace_counts (h : PoolKept s) {e : Entry} (he : s.entry i = some e) (hp : e.inPool = true) {u : State}
    (hb : u.holdBudget = s.holdBudget) (hi : u.initiators = s.initiators) :
    (givePlace e.initiator u).holdBudget + 1 = s.holdBudget ∧
      ∀ n, ((givePlace e.initiator u).init n).heldCount + (e.initiator == n).toNat = (s.init n).heldCount := by
  obtain ⟨hbudget, hheld⟩ := place_taken h he hp
  have hinit : ∀ n, u.init n = s.init n := fun n => by rw [State.init, State.init, hi]
  refine ⟨?_, fun n => ?_⟩
  · change u.holdBudget - 1 + 1 = _
    omega
  · rw [givePlace_heldCount, hinit]
    by_cases hn : e.initiator = n
    · subst hn
      rw [beq_self_eq_true, Bool.toNat_true]
      omega
    · simp [beq_eq_false_iff_ne.mpr hn]

end Seats

/-! ## The books after each move -/

theorem any_eq_false_of_not_waits {x : Option Entry} (hx : ∀ e ∈ x, e.waits = false) {p : Entry → Bool}
    (hp : ∀ e, p e = true → e.waits = true) : x.any p = false := by
  cases x with
  | none => rfl
  | some e =>
    have he := hx e rfl
    cases hpe : p e with
    | false => exact hpe
    | true => simp [hp e hpe] at he

theorem waits_of_stands {l : ListId} {e : Entry} (h : e.stands l = true) : e.waits = true := by
  simp only [Entry.stands, Bool.and_eq_true] at h
  simp [Entry.waits, h.1]

theorem waits_of_inPool {e : Entry} (h : e.inPool = true) : e.waits = true := by
  simp only [Entry.inPool, Bool.or_eq_true] at h
  rcases h with h | h <;> simp [Entry.waits, h]

section Books

variable {s t : State} {i : EntryIdx} {e : Entry} {x : Option Entry}

/-- What takes the place does not wait: only what stood there has left. -/
theorem booked_of_not_waits (hx : ∀ f ∈ x, f.waits = false) (horder : t.nextOrder = s.nextOrder)
    (hheld : ∀ l, t.held l = (s.held l).filter fun j => j != i)
    (hstalled : t.stalled = s.stalled.filter fun j => j != i) (hstage : t.stage = s.stage.filter fun j => j != i)
    (hbudget : t.holdBudget + ((s.entry i).any Entry.inPool).toNat = s.holdBudget)
    (hcount : ∀ n, (t.init n).heldCount + ((s.entry i).any fun e => e.inPool && e.initiator == n).toNat =
      (s.init n).heldCount) : Booked i x s t where
  nextOrder := horder
  held l := by rw [hheld, any_eq_false_of_not_waits hx fun _ => waits_of_stands]; simp
  stalled := by
    rw [hstalled, any_eq_false_of_not_waits hx fun e he => by simp_all [Entry.waits]]
    rfl
  stage := by
    rw [hstage, any_eq_false_of_not_waits hx fun e he => by simp_all [Entry.waits]]
    rfl
  budget := by rw [hbudget, any_eq_false_of_not_waits hx fun _ => waits_of_inPool]; rfl
  heldCount n := by
    rw [hcount, any_eq_false_of_not_waits hx fun e he => waits_of_inPool (Bool.and_eq_true _ _ ▸ he).1]
    rfl

theorem ne_of_not_waits {o : Option Entry} (ho : ∀ e ∈ o, e.waits = false) :
    (∀ e ∈ o, e.state ≠ .held) ∧ (∀ e ∈ o, e.state ≠ .stalled) ∧ ∀ e ∈ o, e.state ≠ .passing := by
  refine ⟨fun e he hs => ?_, fun e he hs => ?_, fun e he hs => ?_⟩ <;> simpa [Entry.waits, hs] using ho e he

variable (h : PoolKept s)
include h

/-- Neither waits, what stood there nor what takes its place. -/
theorem booked_aside (hi : ∀ e ∈ s.entry i, e.waits = false) (hx : ∀ f ∈ x, f.waits = false) : Booked i x s s := by
  obtain ⟨hheld, hstalled, hpassing⟩ := ne_of_not_waits hi
  refine booked_of_not_waits hx rfl (fun l => (filter_held_eq h hheld l).symm) (filter_stalled_eq h hstalled).symm
    (filter_stage_eq h hpassing).symm ?_ fun n => ?_
  · rw [any_eq_false_of_not_waits hi fun _ => waits_of_inPool]; rfl
  · rw [any_eq_false_of_not_waits hi fun e he => waits_of_inPool (Bool.and_eq_true _ _ ▸ he).1]; rfl

section Leaving

variable (he : s.entry i = some e)
include he

omit h in
theorem state_ne_of_entry {y : EntryState} (hs : e.state ≠ y) : ∀ f ∈ s.entry i, f.state ≠ y := by
  rintro f hf
  obtain rfl := Option.some.inj (he.symm.trans hf)
  exact hs

/-- A HELD entry leaves its list and gives up its place (R82). -/
theorem booked_leaveLists (hs : e.state = .held) (hx : ∀ f ∈ x, f.waits = false) :
    Booked i x s (givePlace e.initiator (leaveLists i s)) := by
  have hp : e.inPool = true := by simp [Entry.inPool, hs]
  obtain ⟨hbudget, hcount⟩ := givePlace_counts h he hp (u := leaveLists i s) rfl rfl
  refine booked_of_not_waits hx rfl (fun l => ?_)
    (filter_stalled_eq h (state_ne_of_entry he (by simp [hs]))).symm
    (filter_stage_eq h (state_ne_of_entry he (by simp [hs]))).symm ?_ fun n => ?_
  · rw [← leaveLists_held]
    cases l <;> rfl
  · simpa [he, hp] using hbudget
  · simpa [he, hp] using hcount n

/-- The STALLED entry leaves the stall slot and gives up its place (R95). -/
theorem booked_leaveStall (hs : e.state = .stalled) (hx : ∀ f ∈ x, f.waits = false) :
    Booked i x s (givePlace e.initiator (leaveStall s)) := by
  have hp : e.inPool = true := by simp [Entry.inPool, hs]
  obtain ⟨hbudget, hcount⟩ := givePlace_counts h he hp (u := leaveStall s) rfl rfl
  refine booked_of_not_waits hx rfl (fun l => ?_) ?_
    (filter_stage_eq h (state_ne_of_entry he (by simp [hs]))).symm ?_ fun n => ?_
  · rw [filter_held_eq h (state_ne_of_entry he (by simp [hs]))]
    cases l <;> rfl
  · rw [stalled_of_entry h he hs]
    simp [givePlace, leaveStall, Option.filter]
  · simpa [he, hp] using hbudget
  · simpa [he, hp] using hcount n

/-- The PASSING entry leaves the decode stage (R62). -/
theorem booked_leaveStage (hs : e.state = .passing) (hx : ∀ f ∈ x, f.waits = false) :
    Booked i x s { s with stage := none } := by
  refine booked_of_not_waits hx rfl (fun l => ?_) (filter_stalled_eq h (state_ne_of_entry he (by simp [hs]))).symm ?_
    ?_ fun n => ?_
  · rw [filter_held_eq h (state_ne_of_entry he (by simp [hs]))]
    cases l <;> rfl
  · obtain ⟨_, _, ⟨_, _, hstage, _⟩, _⟩ := h
    rw [(hstage i).mpr (by simp [State.entryIn, he, hs])]
    simp [Option.filter]
  · rw [he, Option.any_some, show e.inPool = false by rw [Entry.inPool, hs]; rfl]
    rfl
  · rw [he, Option.any_some, show e.inPool = false by rw [Entry.inPool, hs]; rfl]
    rfl

end Leaving

end Books

/-! ### What takes the place that has been left -/

section Joining

variable {s u : State} {i : EntryIdx} {f : Entry} (hb : Booked i none s u)
include hb

/-- It passes (R44, R60, R97). -/
theorem Booked.passes (hf : f.state = .passing) : Booked i (some f) s { u with stage := some i } where
  nextOrder := hb.nextOrder
  held l := (hb.held l).trans (by simp [Entry.stands, hf])
  stalled := hb.stalled.trans (by simp [hf])
  stage := by simp [hf]
  budget := hb.budget.trans (by rw [Option.any_some, Entry.inPool, hf]; rfl)
  heldCount n := (hb.heldCount n).trans (by rw [Option.any_some, Entry.inPool, hf]; rfl)

/-- It joins the tail of its list and takes a place of the pool (R81, R84). -/
theorem Booked.joins (hf : f.state = .held) {l : ListId} (hl : f.list = some l) :
    Booked i (some f) s (takePlace f.initiator (u.setHeld l (u.held l ++ [i]))) where
  nextOrder := (State.setHeld_nextOrder ..).trans hb.nextOrder
  held k := by
    have hheld : u.held k = (s.held k).filter fun j => j != i := (hb.held k).trans (by simp)
    have hplace : ∀ v : State, (takePlace f.initiator v).held k = v.held k := fun v => rfl
    rw [hplace, Option.any_some, Entry.stands, hf, hl]
    by_cases hk : k = l
    · subst hk; simp [hheld]
    · simp [State.held_setHeld_ne _ hk, Ne.symm hk, hheld]
  stalled := (State.setHeld_stalled ..).trans (hb.stalled.trans (by simp [hf]))
  stage := (State.setHeld_stage ..).trans (hb.stage.trans (by simp [hf]))
  budget := by
    have hbudget := hb.budget
    rw [Option.any_some, Entry.inPool, hf, takePlace_eq, State.setHeld_holdBudget]
    exact (Nat.add_right_comm ..).trans (congrArg (· + 1) hbudget)
  heldCount n := by
    have hcount := hb.heldCount n
    rw [takePlace_heldCount, State.setHeld_init, Option.any_some, Entry.inPool, hf]
    exact (Nat.add_right_comm ..).trans (congrArg (· + _) hcount)

/-- It is STALLED and takes a place of the pool (R94). -/
theorem Booked.stalls (hf : f.state = .stalled) :
    Booked i (some f) s { takePlace f.initiator u with stalled := some i } where
  nextOrder := hb.nextOrder
  held l := (hb.held l).trans (by simp [Entry.stands, hf])
  stalled := by simp [hf]
  stage := hb.stage.trans (by simp [hf])
  budget := by
    have hbudget := hb.budget
    rw [Option.any_some, Entry.inPool, hf]
    exact (Nat.add_right_comm ..).trans (congrArg (· + 1) hbudget)
  heldCount n := by
    have hcount := hb.heldCount n
    rw [Option.any_some, Entry.inPool, hf]
    exact (congrArg (· + _) (takePlace_heldCount ..)).trans
      ((Nat.add_right_comm ..).trans (congrArg (· + _) hcount))

end Joining

/-- A place that is given up and taken again leaves the counts. -/
theorem pool_takePlace_givePlace {n : InitiatorId} {s : State} (hb : 0 < s.holdBudget) (hn : 0 < (s.init n).heldCount) :
    (takePlace n (givePlace n s)).pool = s.pool := by
  have hcount : ∀ m, ((takePlace n (givePlace n s)).init m).heldCount = (s.init m).heldCount := fun m => by
    rw [takePlace_heldCount, givePlace_heldCount]
    by_cases hm : n = m
    · subst hm
      rw [beq_self_eq_true, Bool.toNat_true]
      exact Nat.sub_add_cancel hn
    · rw [beq_eq_false_iff_ne.mpr hm]
      rfl
  have hbudget : (takePlace n (givePlace n s)).holdBudget = s.holdBudget := by
    change s.holdBudget - 1 + 1 = s.holdBudget
    exact Nat.sub_add_cancel hb
  simp only [State.pool, hbudget, hcount]
  simp [takePlace_eq, givePlace_eq]

theorem Booked.of_pool {i : EntryIdx} {x : Option Entry} {s t u : State} (h : Booked i x s u) (ht : t.pool = u.pool) :
    Booked i x s t where
  nextOrder := (congrArg Pool.nextOrder ht).trans h.nextOrder
  held l := (held_of_pool (ht.trans rfl) l).trans (h.held l)
  stalled := (congrArg Pool.stalled ht).trans h.stalled
  stage := (congrArg Pool.stage ht).trans h.stage
  budget := (congrArg (fun p : Pool => p.holdBudget + _) ht).trans h.budget
  heldCount n := (congrArg (fun p : Pool => p.heldCount n + _) ht).trans (h.heldCount n)

/-- The STALLED entry joins the tail of its list and keeps its place of the pool (R97). -/
theorem booked_unstalled {s : State} {i : EntryIdx} {e f : Entry} {l : ListId} (h : PoolKept s)
    (he : s.entry i = some e) (hs : e.state = .stalled) (hf : f.state = .held) (hl : f.list = some l)
    (hn : f.initiator = e.initiator) :
    Booked i (some f) s ((leaveStall s).setHeld l ((leaveStall s).held l ++ [i])) := by
  have hp : e.inPool = true := by simp [Entry.inPool, hs]
  obtain ⟨hbudget, hcount⟩ := place_taken h he hp
  refine ((booked_leaveStall h he hs (by simp)).joins hf hl).of_pool ?_
  rw [hn, show (givePlace e.initiator (leaveStall s)).setHeld l ((givePlace e.initiator (leaveStall s)).held l ++ [i]) =
    givePlace e.initiator ((leaveStall s).setHeld l ((leaveStall s).held l ++ [i])) by cases l <;> rfl]
  refine (pool_takePlace_givePlace ?_ ?_).symm
  · rw [State.setHeld_holdBudget]
    exact hbudget
  · rw [State.setHeld_init]
    exact hcount

/-! ## The entries that fit -/

section Fitting

variable {s : State} {i : EntryIdx} {e f : Entry}

/-- An entry that waits no more, or never did, keeps its place in the order. -/
theorem fits_of_entry (h : PoolKept s) (he : s.entry i = some e) (ho : f.order = e.order) (hw : f.waits = false)
    (hc : f.state = .declining → f.code.isSome = true) : Fits i f s := by
  obtain ⟨⟨hplaced, hdistinct⟩, _, ⟨_, _, _, hyoungest⟩, _⟩ := h
  obtain ⟨hheld, hstalled, _⟩ := ne_of_not_waits (o := some f) fun g hg => Option.some.inj hg ▸ hw
  refine ⟨ho ▸ hplaced i e he, fun j hj g hg => ho ▸ hdistinct j i hj g hg e he,
    fun j hj g hg hs => ho ▸ hyoungest j i hj g hg hs e he, by simp [hw],
    fun hs => absurd hs (not_or.mpr ⟨hheld f rfl, hstalled f rfl⟩), fun hs => absurd hs (hheld f rfl), hc⟩

/-- The youngest entry fits where no other is STALLED or PASSING. -/
theorem fits_of_youngest (hp : f.order < s.nextOrder) (hy : ∀ j ≠ i, ∀ g ∈ s.entry j, g.order < f.order)
    (ha : ∀ j ≠ i, ∀ g ∈ s.entry j, ¬(g.state = .stalled ∨ g.state = .passing))
    (hl : f.state = .held ∨ f.state = .stalled → f.list.isSome = true) (hr : f.state = .held → s.heldTotal < 31)
    (hc : f.state = .declining → f.code.isSome = true) : Fits i f s :=
  ⟨hp, fun j hj g hg => (hy j hj g hg).ne, fun j hj g hg hs => absurd hs (ha j hj g hg), fun _ => hy, hl, hr, hc⟩

/-- The STALLED entry is the youngest, and nothing is PASSING beside it (R94). -/
theorem fits_of_stalled (h : PoolKept s) (he : s.entry i = some e) (hs : e.state = .stalled) (ho : f.order = e.order)
    (hl : f.list = e.list) (hr : f.state = .held → s.heldTotal < 31)
    (hc : f.state = .declining → f.code.isSome = true) : Fits i f s := by
  obtain ⟨⟨hplaced, _⟩, _, ⟨_, hlist, _, hyoungest⟩, _⟩ := h
  have hyoung : ∀ j ≠ i, ∀ g ∈ s.entry j, g.order < e.order := fun j hj g hg =>
    hyoungest i j hj.symm e he (.inl hs) g hg
  refine fits_of_youngest (ho ▸ hplaced i e he) (ho ▸ hyoung) (fun j hj g hg hgs => ?_)
    (fun _ => hl ▸ hlist i e he hs) hr hc
  exact (hyoung j hj g hg).asymm (hyoungest j i hj g hg hgs e he)

end Fitting

end Sys2Proof.Machine
end

section
/-! The commands of the request link, the deadlines, the mass declines and the port reset keep the laws of the hold pool (R56,
R63, R65 to R67, R73, R91, R92, R97, R99). -/

namespace Sys2Proof.Machine

-- One proof after another: the memory of a compile grows with the proofs that run at once.
set_option Elab.async false

open Sys2Proof.Claims Sys2Proof.Proofs

/-! ## One entry -/

theorem poolKept_of_puts {s t u : State} {i : EntryIdx} {f : Entry} (hp : Puts i (some f) u t) (h : PoolKept s)
    (hb : Booked i (some f) s u) (htable : u.table = s.table) (hfit : Fits i f s) : PoolKept t :=
  poolKept_of_booked h (fun _ he => Option.some.inj he ▸ hfit) (hb.of_puts hp) fun j => by
    rw [hp.entry, State.entry, State.entry, htable]

theorem forall_mem_some_not_waits {f : Entry} (hf : f.waits = false) : ∀ e ∈ some f, e.waits = false :=
  fun _ he => Option.some.inj he ▸ hf

section Leaving

variable {s : State} {i : EntryIdx} {e : Entry} (h : PoolKept s)
include h

theorem poolKept_freeEntry (hi : ∀ e ∈ s.entry i, e.waits = false) : PoolKept (freeEntry i s) :=
  have hp := puts_freeEntry i s
  poolKept_of_booked h (by simp) ((booked_aside h hi (by simp)).of_puts hp) hp.entry

variable (he : s.entry i = some e)
include he

theorem poolKept_declineHeld (c : DeclineCode) (hs : e.state = .held) : PoolKept (declineHeld c s i) := by
  have heq : declineHeld c s i = decline i c (givePlace e.initiator (leaveLists i s)) := by simp only [declineHeld, he]
  rw [heq]
  exact poolKept_of_puts (puts_decline c he) h (booked_leaveLists h he hs (forall_mem_some_not_waits rfl)) rfl
    (fits_of_entry h he rfl rfl fun _ => rfl)

theorem poolKept_declineStalled (c : DeclineCode) (hs : e.state = .stalled) : PoolKept (declineStalled c s i) := by
  have heq : declineStalled c s i = decline i c (givePlace e.initiator (leaveStall s)) := by
    simp only [declineStalled, he]
  rw [heq]
  exact poolKept_of_puts (puts_decline c he) h (booked_leaveStall h he hs (forall_mem_some_not_waits rfl)) rfl
    (fits_of_entry h he rfl rfl fun _ => rfl)

theorem poolKept_issuePassing (hs : e.state = .passing) : PoolKept (issuePassing i e s) := by
  obtain ⟨hentry, hrest⟩ := puts_issueEntry i e s
  have hrest' : (issuePassing i e s).pool = { s.pool with table := (issuePassing i e s).table, stage := none } :=
    congrArg (fun p : Pool => { p with stage := none }) hrest
  exact poolKept_of_puts (u := { s with stage := none }) ⟨hentry, hrest'⟩ h
    (booked_leaveStage h he hs (forall_mem_some_not_waits rfl)) rfl
    (fits_of_entry h he rfl rfl nofun)

theorem poolKept_issueHeld (hs : e.state = .held) : PoolKept (issueHeld i e s) := by
  have hp : Puts i _ (givePlace e.initiator (leaveLists i s)) (issueHeld i e s) :=
    (puts_issueEntry i e _).of_pool (by rw [issueHeld, prompt_eq]; rfl)
  exact poolKept_of_puts hp h (booked_leaveLists h he hs (forall_mem_some_not_waits rfl)) rfl
    (fits_of_entry h he rfl rfl nofun)

end Leaving

/-! ## Acceptance and re-examination -/

@[simp] theorem pool_giveNotice (e : Entry) (wake : Bool) (s : State) : (giveNotice e wake s).pool = s.pool := by
  rw [giveNotice_eq]
  rfl

@[simp] theorem pool_prompt (s : State) : (prompt s).pool = s.pool := by
  rw [prompt_eq]
  rfl

@[simp] theorem pool_offer (e : Event) (s : State) : (offer e s).pool = s.pool := by
  rw [offer_eq]
  rfl

theorem puts_decline_new (i : EntryIdx) (e : Entry) (c : DeclineCode) (s : State) :
    Puts i (some (e.declined c)) s (decline i c (s.setEntry i (some e))) := by
  rw [decline_eq c (State.entry_setEntry_same s i _), declinedAt_setEntry]
  exact ⟨fun j => State.entry_setEntry s j i _, rfl⟩

theorem entryIn_of_entry {s : State} {i : EntryIdx} {e : Entry} (he : s.entry i = some e) :
    s.entryIn i e.state = true := by
  rw [State.entryIn_eq_any, he]
  exact beq_self_eq_true e.state

section Placing

variable {s : State} {i : EntryIdx} {e : Entry} (h : PoolKept s) (hi : s.entry i = none)
  (hplaced : e.order < s.nextOrder) (hyoung : ∀ j, ∀ f ∈ s.entry j, f.order < e.order) (hstage : s.stage = none) (hstalled : s.stalled = none)
include h hplaced hyoung hstage hstalled

/-- A new entry fits in the state that its decision gives it. -/
theorem fits_of_new {f : Entry} (ho : f.order = e.order)
    (hl : f.state = .held ∨ f.state = .stalled → f.list.isSome = true)
    (hr : f.state = .held → s.heldTotal < 31) (hc : f.state = .declining → f.code.isSome = true) : Fits i f s := by
  refine fits_of_youngest (ho ▸ hplaced) (fun j _ g hg => ho ▸ hyoung j g hg) (fun j _ g hg hs => ?_) hl hr hc
  obtain ⟨_, _, ⟨hseat, _, hpass, _⟩, _⟩ := h
  have hin := entryIn_of_entry (Option.mem_def.mp hg)
  rcases hs with hs | hs
  · cases hstalled.symm.trans ((hseat j).mpr (hs ▸ hin))
  · cases hstage.symm.trans ((hpass j).mpr (hs ▸ hin))

include hi

theorem poolKept_decline_new (c : DeclineCode) : PoolKept (decline i c (s.setEntry i (some e))) :=
  poolKept_of_puts (puts_decline_new i e c s) h (booked_aside h (by simp [hi]) (forall_mem_some_not_waits rfl)) rfl
    (fits_of_new h hplaced hyoung hstage hstalled rfl nofun nofun fun _ => rfl)

theorem poolKept_passEntry_new : PoolKept (passEntry i e s) :=
  poolKept_of_puts (puts_passEntry i e s) h ((booked_aside h (by simp [hi]) (by simp)).passes rfl) rfl
    (fits_of_new h hplaced hyoung hstage hstalled rfl nofun nofun nofun)

theorem poolKept_holdNew (r : HoldReason) (hl : e.list.isSome = true) : PoolKept (holdNew i e r s) := by
  have hfree : Booked i none s s := booked_aside h (by simp [hi]) (by simp)
  obtain ⟨l, hl'⟩ := Option.isSome_iff_exists.mp hl
  unfold holdNew
  split
  · next hroom =>
    obtain ⟨hslots, _⟩ := (room_iff ..).mp hroom
    refine poolKept_of_puts (((puts_joinList r s hl').takePlace e.initiator).of_pool (pool_giveNotice ..)) h
      (hfree.joins rfl hl') ?_
      (fits_of_new h hplaced hyoung hstage hstalled rfl (fun _ => hl) (fun _ => hslots) nofun)
    cases l <;> rfl
  · split
    · exact poolKept_decline_new h hi hplaced hyoung hstage hstalled .poolFull
    · exact poolKept_of_puts (puts_stallEntry i e s) h (hfree.stalls rfl) rfl
        (fits_of_new h hplaced hyoung hstage hstalled rfl (fun _ => hl) nofun nofun)

theorem poolKept_placeNew {x : Decision} (hl : ∀ r, x = .hold r → e.list.isSome = true) :
    PoolKept (placeNew i e x s) := by
  cases x with
  | pass =>
    have hpass := poolKept_passEntry_new h hi hplaced hyoung hstage hstalled
    unfold placeNew
    dsimp only
    split
    · exact poolKept_of_pool (pool_giveNotice ..) hpass
    · exact hpass
  | hold r => exact poolKept_holdNew h hi hplaced hyoung hstage hstalled r (hl r rfl)
  | decline c => exact poolKept_decline_new h hi hplaced hyoung hstage hstalled c

end Placing

theorem decodeThrough_listed (s : State) (r : Request) (w : WindowId) : (decodeThrough s r w).list.isSome = true := by
  unfold decodeThrough
  dsimp only
  split
  · rfl
  · split <;> rfl

/-- A request that must be held has a list to be held in (R49). -/
theorem decodeRequest_listed {s : State} {r : Request} {x : HoldReason} (h : (decodeRequest s r).decision = .hold x) :
    (decodeRequest s r).list.isSome = true := by
  have hm := decodeRequest_hold h
  simp only [decodeRequest, hm, decodeGoverning] at h ⊢
  split at h
  · cases h
  next htag =>
  split at h
  · cases h
  next hgranule =>
  rw [if_neg htag, if_neg hgranule]
  cases hw : s.windowFor r.address with
  | none => rfl
  | some w =>
    dsimp only
    split
    · exact decodeThrough_listed s r w
    · rfl

/-- The next place in the order of acceptance is given out (R59), and a steering word leaves the pool (R131). -/
theorem acceptAt_eq (i : EntryIdx) (r : Request) (s : State) :
    ∃ u : State, u.pool = { s.pool with nextOrder := s.nextOrder + 1 } ∧
      acceptAt i r s = placeNew i (newEntry s r (decodeRequest s r)) (decodeRequest s r).decision u := by
  refine ⟨_, ?_, rfl⟩
  cases (decodeRequest s r).word with
  | none => rfl
  | some w =>
    obtain ⟨_, _, h⟩ := takeSteeringWord_frame w r { s with nextOrder := s.nextOrder + 1 }
    dsimp only
    rw [h]
    rfl

theorem poolKept_acceptAt {s : State} {i : EntryIdx} (h : PoolKept s) (r : Request) (hi : s.entry i = none)
    (hstage : s.stage = none) (hstalled : s.stalled = none) : PoolKept (acceptAt i r s) := by
  obtain ⟨u, hu, heq⟩ := acceptAt_eq i r s
  have hentry : ∀ j, u.entry j = s.entry j := fun j => congrArg (fun p : Pool => p.table[j]) hu
  have hnext : u.nextOrder = s.nextOrder + 1 := congrArg Pool.nextOrder hu
  obtain ⟨⟨hplaced, hdistinct⟩, hrest⟩ := h
  have hordered : PoolKept { s with nextOrder := s.nextOrder + 1 } :=
    ⟨⟨fun j e he => Nat.lt_succ_of_lt (hplaced j e he), hdistinct⟩, hrest⟩
  rw [heq]
  exact poolKept_placeNew (poolKept_of_pool (s := { s with nextOrder := s.nextOrder + 1 }) hu hordered)
    ((hentry i).trans hi) (hnext ▸ Nat.lt_succ_self s.nextOrder) (fun j f hf => hplaced j f (hentry j ▸ hf))
    ((congrArg Pool.stage hu).trans hstage) ((congrArg Pool.stalled hu).trans hstalled) fun _ => decodeRequest_listed

theorem poolKept_reExamine {s : State} {i : EntryIdx} {e : Entry} (h : PoolKept s) (he : s.entry i = some e)
    (hs : e.state = .stalled) : PoolKept (reExamine i e s) := by
  unfold reExamine
  split
  · exact poolKept_of_puts ((puts_passEntry i e _).of_pool (pool_giveNotice ..)) h
      ((booked_leaveStall h he hs (by simp)).passes rfl) rfl (fits_of_stalled h he hs rfl rfl nofun nofun)
  · next r _ =>
    split
    · next hroom =>
      obtain ⟨hslots, _⟩ := (room_iff ..).mp hroom
      obtain ⟨l, hl⟩ : ∃ l, e.list = some l := by
        obtain ⟨_, _, ⟨_, hlist, _⟩, _⟩ := h
        exact Option.isSome_iff_exists.mp (hlist i e he hs)
      refine poolKept_of_puts ((puts_joinList r _ hl).of_pool (pool_giveNotice ..)) h
        (booked_unstalled h he hs rfl hl rfl) ?_ (fits_of_stalled h he hs rfl rfl (fun _ => hslots) nofun)
      cases l <;> rfl
    · exact poolKept_of_pool rfl h
  · exact poolKept_declineStalled h he _ hs

/-! ## Responses -/

theorem state_of_entryIn {s : State} {i : EntryIdx} {x : EntryState} (h : s.entryIn i x = true) :
    ∃ e, s.entry i = some e ∧ e.state = x := by
  rw [State.entryIn_eq_any] at h
  cases he : s.entry i with
  | none => simp [he] at h
  | some e => exact ⟨e, rfl, by simpa [he] using h⟩

theorem not_waits_of_entryIn {s : State} {i : EntryIdx} {x : EntryState} (h : s.entryIn i x = true)
    (hx : x = .issued ∨ x = .declining ∨ x = .orphaned) : ∀ e ∈ s.entry i, e.waits = false := by
  obtain ⟨f, hf, rfl⟩ := state_of_entryIn h
  rintro e he
  obtain rfl := Option.some.inj (hf.symm.trans he)
  rcases hx with hx | hx | hx <;> rw [Entry.waits, hx] <;> rfl

theorem poolKept_matchResponse {s : State} (h : PoolKept s) (r : MemResponse) : PoolKept (matchResponse r s) := by
  unfold matchResponse
  split
  · split
    · exact poolKept_of_pool rfl h
    split
    · next horphan => exact poolKept_freeEntry h (not_waits_of_entryIn horphan (.inr (.inr rfl)))
    · exact poolKept_of_pool (pool_offer ..) h
  · exact poolKept_of_pool (pool_offer ..) h

theorem forwardCandidate_issued {s : State} {i : EntryIdx} (h : s.forwardCandidate = some i) :
    s.entryIn i .issued = true := by
  unfold State.forwardCandidate at h
  split at h
  · split at h
    · split at h
      · next hin => exact Option.some.inj h ▸ hin
      · cases h
    · cases h
  · cases h

theorem declineCandidate_declining {s : State} {i : EntryIdx} (h : s.declineCandidate = some i) :
    s.entryIn i .declining = true :=
  (List.mem_filter.mp (mem_of_oldest h)).2

/-! ## Mass declines -/

theorem poolKept_foldl_declineHeld (c : DeclineCode) {l : List EntryIdx} (hl : l.Nodup) {s : State} (h : PoolKept s)
    (hheld : ∀ i ∈ l, s.entryIn i .held = true) : PoolKept (l.foldl (declineHeld c) s) := by
  induction l generalizing s with
  | nil => exact h
  | cons i l ih =>
    obtain ⟨hi, hl⟩ := List.nodup_cons.mp hl
    obtain ⟨e, he, hs⟩ := state_of_entryIn (hheld i List.mem_cons_self)
    refine ih hl (poolKept_declineHeld h he c hs) fun j hj => ?_
    rw [State.entryIn, declineHeld_entry, if_neg fun heq : j = i => hi (heq ▸ hj)]
    exact hheld j (List.mem_cons_of_mem i hj)

theorem poolKept_massDecline {s : State} (h : PoolKept s) (d : DomainId) (sel selStalled : Entry → Bool)
    (c : DeclineCode) : PoolKept (massDecline d sel selStalled c s) := by
  have hheld : PoolKept ((selectedHeld d sel s).foldl (declineHeld c) s) := by
    refine poolKept_foldl_declineHeld c (selectedHeld_nodup h d sel) h fun i hi => ?_
    obtain ⟨e, he, hs, _⟩ := held_live h (List.mem_filter.mp hi).1
    exact hs ▸ entryIn_of_entry he
  have hall : PoolKept ((selectedStalled d selStalled s).foldl (declineStalled c)
      ((selectedHeld d sel s).foldl (declineHeld c) s)) := by
    rcases selectedStalled_cases d selStalled s with hnil | ⟨i, hi, hone⟩
    · rwa [hnil]
    · rw [hone, List.foldl_cons, List.foldl_nil]
      obtain ⟨_, _, _, _, _, _, hframe⟩ := foldl_declineHeld_frame c (selectedHeld d sel s) s
      obtain ⟨e, he, hs⟩ := stalled_live hheld (i := i) (by rw [hframe]; exact hi)
      exact poolKept_declineStalled hheld he c hs
  unfold massDecline
  dsimp only
  split
  · exact hall
  · exact poolKept_of_pool (pool_prompt _) hall

/-! ## The port reset -/

/-- Orphans alone stand in the table, and the pool is empty. -/
theorem poolKept_of_orphans {t : State} (horder : OrderKept t)
    (horphan : ∀ i e, t.entry i = some e → e.state = .orphaned)
    (hheld : ∀ l, t.held l = []) (hstalled : t.stalled = none) (hstage : t.stage = none) (hbudget : t.holdBudget = 0)
    (hcount : ∀ n, (t.init n).heldCount = 0) : PoolKept t := by
  have hnot : ∀ i, ∀ e ∈ t.entry i, ∀ {x}, x ≠ EntryState.orphaned → e.state ≠ x :=
    fun i e he x hx hs => hx (hs.symm.trans (horphan i e he))
  have hin : ∀ i x, x ≠ EntryState.orphaned → ¬t.entryIn i x = true := fun i x hx hin => by
    obtain ⟨e, he, hs⟩ := state_of_entryIn hin
    exact hnot i e he hx hs
  have hout : ∀ i e, t.entry i = some e → e.inPool = false := fun i e he => by
    rw [Entry.inPool, horphan i e he]
    rfl
  refine ⟨horder, ⟨fun l _ i hi => ?_, fun i e he hs => absurd hs (hnot i e he nofun), fun l _ => ?_⟩,
    ⟨fun i => ?_, fun i e he hs => absurd hs (hnot i e he nofun), fun i => ?_, fun i j _ e he hs => ?_⟩,
    ⟨?_, ?_, fun n => ?_⟩, fun i e he hs => absurd hs (hnot i e he nofun)⟩
  · simp [hheld] at hi
  · simp [hheld]
  · simp [hstalled, hin i .stalled nofun]
  · simp [hstage, hin i .passing nofun]
  · exact absurd hs (not_or.mpr ⟨hnot i e he nofun, hnot i e he nofun⟩)
  · simp [State.heldTotal, hheld, Function.comp_def]
  · rw [hbudget, countEntries_eq_zero hout]
  · rw [hcount, countEntries_eq_zero fun i e he => by rw [hout i e he, Bool.false_and]]

theorem emptied_entry_orphan {s : State} {i : EntryIdx} {e : Entry} (he : (emptied s).entry i = some e) :
    e.state = .orphaned ∧ ∃ f, s.entry i = some f ∧ e.order = f.order := by
  rw [emptied_entry] at he
  split at he
  · cases he
  obtain ⟨f, hf, hfe⟩ := Option.bind_eq_some_iff.mp he
  unfold Entry.afterReset at hfe
  split at hfe
  · exact Option.some.inj hfe ▸ ⟨rfl, f, hf, rfl⟩
  · cases hfe

/-- A port reset leaves orphans alone in the table, and the pool empty (R73). -/
theorem poolKept_resetPort {s : State} (h : PoolKept s) : PoolKept (resetPort s) := by
  have horphan := fun (i : EntryIdx) (e : Entry) => emptied_entry_orphan (s := s) (i := i) (e := e)
  have hheld := emptied_held s
  have hinit := emptied_init s
  have hrest : (emptied s).nextOrder = s.nextOrder ∧ (emptied s).stalled = none ∧ (emptied s).holdBudget = 0 := by
    obtain ⟨_, _, _, _, hframe⟩ := emptied_frame s
    rw [hframe]
    exact ⟨rfl, rfl, rfl⟩
  obtain ⟨⟨hplaced, hdistinct⟩, _⟩ := h
  rw [resetPort_eq]
  generalize emptied s = u at *
  obtain ⟨hnext, hstalled, hbudget⟩ := hrest
  refine poolKept_of_orphans ⟨fun i e he => ?_, fun i j hij e he f hf => ?_⟩ (fun i e he => (horphan i e he).1) hheld
    hstalled rfl hbudget fun n => congrArg Initiator.heldCount (hinit n)
  · obtain ⟨-, g, hg, ho⟩ := horphan i e he
    exact lt_of_lt_of_eq (ho ▸ hplaced i g hg) hnext.symm
  · obtain ⟨-, g, hg, ho⟩ := horphan i e he
    obtain ⟨-, k, hk, ho'⟩ := horphan j f hf
    rw [ho, ho']
    exact hdistinct i j hij g hg k hk

end Sys2Proof.Machine
end

section
/-! What the moves of the domain state machine, the frames and the settings leave of the hold pool, and the law of the pool under
every command (R57, R60, R78, R80, R81, R84, R94). -/

namespace Sys2Proof.Machine

-- One proof after another: the memory of a compile grows with the proofs that run at once.
set_option Elab.async false

open Sys2Proof.Claims Sys2Proof.Proofs

/-! ## Operations that leave the pool as it is -/

section Aside

variable (d : DomainId) (s : State)

@[simp] theorem pool_setDom (x : Domain) : (s.setDom d x).pool = s.pool := rfl
@[simp] theorem pool_setSlot (c : Slot) : (s.setSlot d c).pool = s.pool := rfl
@[simp] theorem pool_reply (status : Status) (bytes : List Byte) : (reply status bytes s).pool = s.pool := rfl
@[simp] theorem pool_actionRefused (status : Status) : (actionRefused status s).pool = s.pool := rfl
@[simp] theorem pool_actionReply (n : Nat) : (actionReply d n s).pool = s.pool := rfl
@[simp] theorem pool_handLower (l : Level) : (handLower d l s).pool = s.pool := rfl
@[simp] theorem pool_handRaise : (handRaise d s).pool = s.pool := rfl
@[simp] theorem pool_reloadIdle : (reloadIdle d s).pool = s.pool := rfl
@[simp] theorem pool_loadDeep : (loadDeep d s).pool = s.pool := rfl
@[simp] theorem pool_enterDraining (l : Level) : (enterDraining d l s).pool = s.pool := rfl
@[simp] theorem pool_setWakePending : (setWakePending d s).pool = s.pool := rfl
@[simp] theorem pool_storeConfig (c : DomainConfig) : (storeConfig d c s).pool = s.pool := rfl

@[simp] theorem pool_enterActive : (enterActive d s).pool = s.pool := by
  obtain ⟨_, h⟩ := enterActive_frame d s
  rw [h]
  rfl

@[simp] theorem pool_completeDrain : (completeDrain d s).pool = s.pool := by
  rcases completeDrain_cases d s with ⟨-, h⟩ | ⟨-, h⟩ <;> rw [h]
  rfl

@[simp] theorem pool_takeUp : (takeUp d s).pool = s.pool := by
  obtain ⟨_, _, _, _, h⟩ := takeUp_frame d s
  rw [h]
  rfl

theorem pool_actOnNotice (n : Notice) : (actOnNotice n s).pool = s.pool := by
  unfold actOnNotice
  split
  · split <;> simp
  · split <;> simp
  · split <;> simp
  · split <;> simp
  · rfl
  · rfl

theorem pool_takeKeep : (takeKeep d s).pool = s.pool := by
  unfold takeKeep
  split <;> simp

theorem pool_takeRaiseClaim (c : Claim) : (takeRaiseClaim c s).pool = s.pool := by
  unfold takeRaiseClaim
  dsimp only
  split
  · exact pool_offer ..
  · rfl
  · split
    · exact pool_offer ..
    · exact pool_takeUp ..

theorem pool_takeRaise : (takeRaise d s).pool = s.pool := by
  unfold takeRaise
  dsimp only
  split
  · rfl
  · simp
  · simp
  · split <;> simp

/-- LOWER is refused, or moves the domain and its slot alone (R27). -/
theorem pool_takeLower (l : Level) : (takeLower d l s).pool = s.pool := by
  unfold takeLower
  dsimp only
  split
  case h_1 => split_ifs <;> simp
  case h_2 => split_ifs <;> simp
  case h_3 =>
    split
    case h_4 => rfl
    all_goals split_ifs <;> simp
  all_goals rfl

theorem pool_takeAssumption (a : Assumption) : (takeAssumption d a s).pool = s.pool := by
  cases a <;> simp [takeAssumption]

theorem pool_takeConfig (c : DomainConfig) : (takeConfig d c s).pool = s.pool := by
  have hlimits : ∀ t : State, (applyLimits d t).pool = t.pool := fun t => by
    unfold applyLimits
    dsimp only
    split
    · simp
    · split_ifs <;> simp
    · split_ifs <;> simp
    · rfl
  have hpin : ∀ t : State, (applyPin d t).pool = t.pool := fun t => by
    unfold applyPin
    dsimp only
    split
    · rfl
    · split <;> simp
    · split
      · simp
      · simp
      · split_ifs <;> simp
      · rfl
  unfold takeConfig
  dsimp only
  split
  · rw [hpin, hlimits, pool_storeConfig]
  · exact pool_storeConfig ..

theorem pool_takeSwitch : (takeSwitch d s).pool = s.pool := by
  unfold takeSwitch
  split_ifs <;> simp

theorem pool_takeMode (m : Mode) : (takeMode m s).pool = s.pool := by
  unfold takeMode
  split
  · rfl
  · cases m with
    | governing => rfl
    | transparent => dsimp only; split <;> rfl

/-- The quota and the strict flag are stored beside the held count (R86). -/
theorem pool_storeInitiator (n : InitiatorId) (quota : Nat) (strict : Bool) :
    (storeInitiator n quota strict s).pool = s.pool := by
  have hset : (s.setInit n { s.init n with quota := quota, strict := strict }).pool = s.pool := by
    refine congrArg (Pool.mk _ _ _ _ _ _ _) (funext fun m => ?_)
    rw [State.init_setInit]
    split
    · next hm => rw [hm]
    · rfl
  unfold storeInitiator
  dsimp only
  split
  · rw [pool_prompt, hset]
  · exact hset

end Aside

/-! ## The acknowledges and the ack timer -/

section Acknowledged

variable {s : State} (h : PoolKept s) (d : DomainId)
include h

theorem poolKept_takeFlush : PoolKept (takeFlush d s) :=
  poolKept_of_pool (pool_completeDrain ..) (poolKept_massDecline h d everyEntry everyEntry .flushed)

theorem poolKept_abandonCommand : PoolKept (abandonCommand d s) := by
  refine poolKept_of_pool (pool_offer ..) (poolKept_massDecline ?_ d everyEntry everyEntry .domainFault)
  exact poolKept_of_pool rfl h

theorem poolKept_doneLower : PoolKept (doneLower d s) := by
  have hlose : ∀ t : State, PoolKept t → PoolKept (loseContents d t) := fun t ht => by
    refine poolKept_massDecline ?_ d guardedEntry guardedEntry .contentLost
    exact poolKept_of_pool rfl ht
  have hlow : ∀ (x : Domain) (e : Event), PoolKept (offer e (s.setDom d x)) := fun x e =>
    poolKept_of_pool (pool_offer ..) (poolKept_of_pool rfl h)
  unfold doneLower
  dsimp only
  split
  · refine poolKept_of_pool (pool_handRaise ..) ?_
    split
    · exact hlose _ (hlow _ _)
    · exact hlow _ _
  · refine poolKept_of_pool (pool_loadDeep ..) ?_
    split
    · exact hlose _ (hlow _ _)
    · exact hlow _ _

theorem poolKept_deliver (o : AckOutcome) (k : PowerCommand) : PoolKept (deliver o k d s) := by
  cases k with
  | lower l =>
    cases o with
    | done => exact poolKept_doneLower h d
    | refused => exact poolKept_of_pool (by simp [deliver, refusedLower]) h
  | raise =>
    cases o with
    | done => exact poolKept_of_pool (by simp [deliver, doneRaise]) h
    | refused =>
      refine poolKept_of_pool ((pool_loadDeep ..).trans (pool_offer ..))
        (poolKept_massDecline ?_ d everyEntry noEntry .wakeRefused)
      exact poolKept_of_pool rfl h

end Acknowledged

/-! ## Every command -/

section Commands

variable {s t u : State} (h : PoolKept s)
include h

theorem poolKept_ite {p : Prop} [Decidable p] (hu : p → PoolKept u) : PoolKept (if p then u else s) := by
  split
  · exact hu ‹_›
  · exact h

theorem poolKept_whileRunning (hu : PoolKept u) (ht : whileRunning s u = .next t) : PoolKept t := by
  obtain rfl := Host.Outcome.next.inj ht
  split
  · exact h
  · exact hu

theorem poolKept_inFrame {c : Option Command} (hu : PoolKept u) (ht : inFrame c s u = .next t) : PoolKept t := by
  obtain rfl := Host.Outcome.next.inj ht
  exact poolKept_ite h fun _ => hu

theorem poolKept_next (ht : (.next u : Host.Outcome State Fault Refusal) = .next t) (hu : u.pool = s.pool) :
    PoolKept t :=
  Host.Outcome.next.inj ht ▸ poolKept_of_pool hu h

theorem poolKept_execAcceptance {r : Request} (ht : execAcceptance r s = .next t) : PoolKept t := by
  refine poolKept_whileRunning h (poolKept_ite h fun ha => ?_) ht
  simp only [State.accepting, Bool.and_eq_true, Option.isNone_iff_eq_none] at ha
  obtain ⟨⟨⟨-, hstage⟩, -⟩, hstalled⟩ := ha
  split
  · next i hi => exact poolKept_acceptAt h r (entry_of_lowestFree hi) hstage hstalled
  · exact h

theorem poolKept_execIssue (ht : execIssue s = .next t) : PoolKept t := by
  refine poolKept_whileRunning h ?_ ht
  split
  · next i hi =>
    split
    · next e he =>
      split
      · next hstage =>
        obtain ⟨_, _, ⟨_, _, hpass, _⟩, _⟩ := id h
        obtain ⟨f, hf, hs⟩ := state_of_entryIn ((hpass i).mp hstage)
        obtain rfl := Option.some.inj (he.symm.trans hf)
        exact poolKept_issuePassing h he hs
      · next hstage =>
        obtain ⟨l, hl, -⟩ := releaseCandidate_mem ((issueChoice_cases hi).resolve_left hstage)
        obtain ⟨f, hf, hs, -⟩ := held_live h hl
        obtain rfl := Option.some.inj (he.symm.trans hf)
        exact poolKept_issueHeld h he hs
    · exact h
  · exact h

theorem poolKept_execForwarding (ht : execForwarding s = .next t) : PoolKept t := by
  refine poolKept_whileRunning h (poolKept_ite h fun _ => ?_) ht
  split
  · next i r hi _ =>
    split
    · exact poolKept_of_pool rfl
        (poolKept_freeEntry h (not_waits_of_entryIn (forwardCandidate_issued hi) (.inl rfl)))
    · exact h
  · exact h

theorem poolKept_execDeclineSend (ht : execDeclineSend s = .next t) : PoolKept t := by
  refine poolKept_whileRunning h (poolKept_ite h fun _ => ?_) ht
  split
  · next i hi =>
    split
    · split
      · exact poolKept_of_pool rfl
          (poolKept_freeEntry h (not_waits_of_entryIn (declineCandidate_declining hi) (.inr (.inl rfl))))
      · exact h
    · exact h
  · exact h

theorem poolKept_execReExamination (ht : execReExamination s = .next t) : PoolKept t := by
  refine poolKept_whileRunning h ?_ ht
  split
  · next i hi =>
    split
    · next e he =>
      obtain ⟨f, hf, hs⟩ := stalled_live h hi
      obtain rfl := Option.some.inj (he.symm.trans hf)
      exact poolKept_ite h fun _ => poolKept_reExamine h he hs
    · exact h
  · exact h

theorem poolKept_execHoldDeadlineExpiry {i : EntryIdx} (ht : execHoldDeadlineExpiry i s = .next t) : PoolKept t := by
  refine poolKept_whileRunning h ?_ ht
  split
  · next e he =>
    exact poolKept_ite h fun hdue => poolKept_of_pool (pool_prompt _) (poolKept_declineHeld h he .holdTimeout hdue.1)
  · exact h

theorem poolKept_execStallDeadlineExpiry (ht : execStallDeadlineExpiry s = .next t) : PoolKept t := by
  refine poolKept_whileRunning h ?_ ht
  split
  · next i hi =>
    split
    · next e he =>
      obtain ⟨f, hf, hs⟩ := stalled_live h hi
      obtain rfl := Option.some.inj (he.symm.trans hf)
      exact poolKept_ite h fun _ => poolKept_declineStalled h he .holdTimeout hs
    · exact h
  · exact h

theorem poolKept_execAcknowledge {o : AckOutcome} {d : DomainId} (ht : execAcknowledge o d s = .next t) :
    PoolKept t := by
  refine poolKept_whileRunning h ?_ ht
  split
  · refine poolKept_deliver ?_ d o _
    exact poolKept_of_pool rfl h
  · exact poolKept_of_pool (pool_offer ..) h
  · exact poolKept_of_pool (pool_offer ..) h

theorem poolKept_execPortReset (ht : execPortReset s = .next t) : PoolKept t := by
  obtain rfl := Host.Outcome.next.inj ht
  split
  · exact h
  split
  · exact poolKept_of_pool rfl h
  · exact poolKept_resetPort h

omit h in
theorem poolKept_powerOn (b : Bool) (s : State) : PoolKept (powerOn b s) := by
  obtain ⟨_, hp, _⟩ := kept_powerOn b s
  exact hp

/-- The commands that move requests and responses (R56, R63, R65 to R67, R73, R91, R92, R97). -/
theorem exec_poolKept_of_movesTraffic {c : Instr} (ht : exec c s = .next t) (hm : movesTraffic c = true) :
    PoolKept t := by
  cases c with
  | acceptance r => exact poolKept_execAcceptance h ht
  | issue => exact poolKept_execIssue h ht
  | downstreamResponse r =>
    refine poolKept_whileRunning h ?_ ht
    split
    · exact h
    · exact poolKept_matchResponse h r
  | forwarding => exact poolKept_execForwarding h ht
  | declineSend => exact poolKept_execDeclineSend h ht
  | reExamination => exact poolKept_execReExamination h ht
  | holdDeadlineExpiry i => exact poolKept_execHoldDeadlineExpiry h ht
  | stallDeadlineExpiry => exact poolKept_execStallDeadlineExpiry h ht
  | portReset => exact poolKept_execPortReset h ht
  | _ => cases hm

/-! ### The commands that leave the pool, and those that decline a domain's traffic -/

theorem poolKept_whileRunning_of_pool (ht : whileRunning s u = .next t) (hu : u.pool = s.pool) : PoolKept t :=
  poolKept_whileRunning h (poolKept_of_pool hu h) ht

theorem poolKept_inFrame_of_pool {c : Option Command} (ht : inFrame c s u = .next t) (hu : u.pool = s.pool) :
    PoolKept t :=
  poolKept_inFrame h (poolKept_of_pool hu h) ht

omit h in
theorem pool_ite {p : Prop} [Decidable p] (hu : p → u.pool = s.pool) : (if p then u else s).pool = s.pool := by
  split
  · exact hu ‹_›
  · rfl

theorem poolKept_execArrivalNotice {d : DomainId} (ht : execArrivalNotice d s = .next t) : PoolKept t := by
  refine poolKept_whileRunning_of_pool h ht ?_
  split
  · exact pool_actOnNotice ..
  · rfl

theorem poolKept_execCommandTransfer (ht : execCommandTransfer s = .next t) : PoolKept t := by
  refine poolKept_whileRunning_of_pool h ht ?_
  split
  · split <;> rfl
  · rfl

theorem poolKept_execKeepClaim {d : DomainId} (ht : execKeepClaim d s = .next t) : PoolKept t := by
  refine poolKept_whileRunning_of_pool h ht ?_
  split
  · split
    · exact pool_takeKeep ..
    · rfl
  · rfl

theorem poolKept_execRaiseClaim {d : DomainId} (ht : execRaiseClaim d s = .next t) : PoolKept t := by
  refine poolKept_whileRunning_of_pool h ht ?_
  split
  · split
    · exact pool_takeRaiseClaim ..
    · rfl
  · rfl

theorem poolKept_execWriteDomain {b : Byte} {r : Vector Byte 8} (ht : execWriteDomain b r s = .next t) : PoolKept t := by
  refine poolKept_inFrame_of_pool h ht ?_
  split
  · split
    · split
      · rfl
      · exact pool_takeConfig ..
    · rfl
  · rfl

theorem poolKept_execRaiseAction {b a x : Byte} (ht : execRaiseAction b a x s = .next t) : PoolKept t := by
  refine poolKept_inFrame_of_pool h ht ?_
  split
  · split
    · rfl
    split
    · rfl
    split
    · rfl
    · exact pool_takeRaise ..
  · split <;> rfl

theorem poolKept_execLowerAction {b l : Byte} (ht : execLowerAction b l s = .next t) : PoolKept t := by
  refine poolKept_inFrame_of_pool h ht ?_
  split
  · split
    · split
      · rfl
      · exact pool_takeLower ..
    · rfl
  · rfl

theorem poolKept_execClearFault {b a : Byte} (ht : execClearFault b a s = .next t) : PoolKept t := by
  refine poolKept_inFrame_of_pool h ht ?_
  split
  · split
    · split
      · rfl
      split
      · exact pool_takeAssumption ..
      · rfl
    · rfl
  · rfl

theorem poolKept_execWriteInitiator {b q f : Byte} (ht : execWriteInitiator b q f s = .next t) : PoolKept t := by
  refine poolKept_inFrame_of_pool h ht ?_
  split
  · split
    · rfl
    · exact pool_storeInitiator ..
  · rfl

theorem poolKept_execBadCommand {c : Byte} (ht : execBadCommand c s = .next t) : PoolKept t := by
  refine poolKept_inFrame_of_pool h ht ?_
  split
  · rw [takeCode_eq]
    rfl
  · rfl

/-- Every other command leaves the pool, declines a domain's held traffic, or is an edge of RESETN. -/
theorem exec_poolKept_of_not_movesTraffic {c : Instr} (ht : exec c s = .next t) (hm : movesTraffic c = false) :
    PoolKept t := by
  cases c with
  | arrivalNotice d => exact poolKept_execArrivalNotice h ht
  | idleTimerExpiry d => exact poolKept_whileRunning_of_pool h ht (pool_ite fun _ => pool_enterDraining ..)
  | drainCompletion d => exact poolKept_whileRunning_of_pool h ht (pool_completeDrain ..)
  | deepTimerExpiry d => exact poolKept_whileRunning_of_pool h ht (pool_ite fun _ => pool_handLower ..)
  | ackTimerExpiry d => exact poolKept_whileRunning h (poolKept_ite h fun _ => poolKept_abandonCommand h d) ht
  | commandTransfer => exact poolKept_execCommandTransfer h ht
  | acknowledge o d => exact poolKept_execAcknowledge h ht
  | keepClaim d => exact poolKept_execKeepClaim h ht
  | raiseClaim d => exact poolKept_execRaiseClaim h ht
  | portResetRelease => exact poolKept_next h ht rfl
  | powerOnReset =>
    obtain rfl := Host.Outcome.next.inj ht
    split
    · exact h
    · exact poolKept_powerOn true s
  | powerOnResetRelease =>
    obtain rfl := Host.Outcome.next.inj ht
    exact poolKept_ite h fun _ => poolKept_powerOn false s
  | governingSwitchTaken d => exact poolKept_whileRunning_of_pool h ht (pool_ite fun _ => pool_takeSwitch d _)
  | readStatus => exact poolKept_inFrame_of_pool h ht rfl
  | setMode m =>
    refine poolKept_inFrame_of_pool h ht ?_
    split
    · exact pool_takeMode ..
    · rfl
  | readWindow w =>
    refine poolKept_inFrame_of_pool h ht ?_
    split <;> rfl
  | writeWindow w r =>
    refine poolKept_inFrame_of_pool h ht ?_
    split
    · split <;> rfl
    · rfl
  | readDomain d =>
    refine poolKept_inFrame_of_pool h ht ?_
    split <;> rfl
  | writeDomain d r => exact poolKept_execWriteDomain h ht
  | raiseAction d a x => exact poolKept_execRaiseAction (x := x) h ht
  | lowerAction d l => exact poolKept_execLowerAction h ht
  | clearFault d a => exact poolKept_execClearFault h ht
  | validate d x =>
    refine poolKept_inFrame_of_pool h ht ?_
    split <;> rfl
  | flush d x =>
    refine poolKept_inFrame h ?_ ht
    split
    · exact poolKept_takeFlush h _
    · exact poolKept_of_pool rfl h
  | listHeld l =>
    refine poolKept_inFrame_of_pool h ht ?_
    split <;> rfl
  | readInitiator n =>
    refine poolKept_inFrame_of_pool h ht ?_
    split <;> rfl
  | writeInitiator n q f => exact poolKept_execWriteInitiator h ht
  | popEvents k =>
    refine poolKept_inFrame_of_pool h ht ?_
    split <;> rfl
  | recordRemoval =>
    refine poolKept_next h ht (pool_ite fun _ => ?_)
    split <;> rfl
  | setEventControl hi lo f =>
    refine poolKept_inFrame_of_pool h ht ?_
    split <;> rfl
  | badCommand code => exact poolKept_execBadCommand h ht
  | frameAbort bits => exact poolKept_next h ht (pool_ite fun _ => rfl)
  | frameEnd => exact poolKept_next h ht (pool_ite fun _ => rfl)
  | chipSelectFalling => exact poolKept_next h ht (pool_ite fun _ => rfl)
  | ignoringEnd => exact poolKept_next h ht (pool_ite fun _ => rfl)
  | timebaseAdvance => exact poolKept_whileRunning_of_pool (u := { s with timebase := s.timebase + 1 }) h ht rfl
  | _ => cases hm

theorem exec_poolKept {c : Instr} (ht : exec c s = .next t) : PoolKept t := by
  cases hm : movesTraffic c with
  | true => exact exec_poolKept_of_movesTraffic h ht hm
  | false => exact exec_poolKept_of_not_movesTraffic h ht hm

end Commands

end Sys2Proof.Machine

namespace Sys2Proof.Proofs

set_option Elab.async false

open Sys2Proof.Machine

/-- Settles O55: every command replaces entries that fit, one after another, or leaves what the laws read. -/
theorem stepKeepsPoolLaw : Obligations.StepKeepsPoolLaw := by
  intro s t h hstep
  unfold step at hstep
  split at hstep
  · exact Host.Outcome.next.inj hstep ▸ h
  · next rest _ => exact exec_poolKept (s := { s with pending := rest }) h hstep

end Sys2Proof.Proofs
end

section
/-! Rows out of place, and acceptance withheld: what does not happen (R56, R77, R79, R94, R127, R154, R156). -/

namespace Sys2Proof.Proofs

-- One proof after another: the memory of a compile grows with the proofs that run at once.
set_option Elab.async false

open Sys2Proof.Machine Sys2Proof.Claims

theorem mayAbort_eq_false {s : State} (h : ∀ c, s.awaits c = false) (bits : List Bool) : s.mayAbort bits = false := by
  rw [State.mayAbort, h, Bool.false_and, Bool.false_and]

/-- Settles O3: every row of the link, the domain controller, the pool and the power channel runs outside RESETN alone, and
every management command in a frame that awaits it alone. -/
theorem rowsOutOfPlaceChangeNothing : Obligations.RowsOutOfPlaceChangeNothing := by
  refine ⟨fun s hs c hc => ?_, fun s c hc => ?_⟩
  · cases c
    case powerOnReset => rw [exec_powerOnReset_def, execPowerOnReset, if_pos hs]
    case acceptance | arrivalNotice | issue | downstreamResponse | forwarding | declineSend | reExamination
      | holdDeadlineExpiry | stallDeadlineExpiry | idleTimerExpiry | drainCompletion | deepTimerExpiry | ackTimerExpiry
      | commandTransfer | acknowledge | keepClaim | raiseClaim | governingSwitchTaken | timebaseAdvance =>
      exact whileRunning_inReset hs
    all_goals exact hc.elim
  · cases c
    case frameAbort bits =>
      change execFrameAbort bits s = _
      rw [execFrameAbort, mayAbort_eq_false hc, if_neg Bool.false_ne_true]
    case readStatus | setMode | readWindow | writeWindow | readDomain | writeDomain | raiseAction | lowerAction
      | clearFault | validate | flush | listHeld | readInitiator | writeInitiator | popEvents | setEventControl
      | badCommand =>
      exact inFrame_closed hc
    all_goals exact hc.elim

theorem lowestFree_eq_none {s : State} (h : ∀ i, s.entry i ≠ none) : s.lowestFree = none :=
  List.find?_eq_none.mpr fun i _ => by simpa [Option.isSome_iff_ne_none] using h i

/-- One of the conditions under which the upstream port withholds acceptance (R56, R94). -/
theorem accepting_eq_false {s : State}
    (h : s.inReset = true ∨ s.portReset = true ∨ s.stage ≠ none ∨ s.stalled ≠ none ∨ ∀ i, s.entry i ≠ none) :
    s.accepting = false := by
  unfold State.accepting
  rcases h with h | h | h | h | h
  · simp [h]
  · simp [h]
  · simp [Option.isNone_eq_false_iff.mpr (Option.isSome_iff_ne_none.mpr h)]
  · simp [Option.isNone_eq_false_iff.mpr (Option.isSome_iff_ne_none.mpr h)]
  · simp [lowestFree_eq_none h]

/-- Settles O27: the port accepts nothing, and a request that is not accepted leaves the state. -/
theorem acceptanceWithheld : Obligations.AcceptanceWithheld := by
  intro s r h
  rw [exec_acceptance_def, execAcceptance, accepting_eq_false h, if_neg Bool.false_ne_true, whileRunning, ite_self]

end Sys2Proof.Proofs
end

section
/-! The issue arbiter: the release candidate, and ISSUE by the turn (R61 to R63, R70, R82, R87, R96). -/

namespace Sys2Proof.Proofs

-- One proof after another: the memory of a compile grows with the proofs that run at once.
set_option Elab.async false

open Sys2Proof.Machine Sys2Proof.Claims

/-! ## The oldest of some entries -/

theorem oldest_eq_none_iff {s : State} {l : List EntryIdx} : s.oldest l = none ↔ l = [] := by
  cases l with
  | nil => simp [State.oldest]
  | cons i l =>
    unfold State.oldest
    cases s.oldest l with
    | none => simp
    | some j => dsimp only; split <;> simp

theorem orderOf_oldest_le {s : State} {l : List EntryIdx} {i j : EntryIdx} (h : s.oldest l = some i) (hj : j ∈ l) :
    s.orderOf i ≤ s.orderOf j := by
  induction l generalizing i with
  | nil => cases hj
  | cons k l ih =>
    unfold State.oldest at h
    cases ho : s.oldest l with
    | none =>
      rw [oldest_eq_none_iff.mp ho] at hj
      simp_all
    | some m =>
      have hrest : j ∈ l → s.orderOf m ≤ s.orderOf j := ih ho
      simp only [ho] at h
      rcases List.mem_cons.mp hj with rfl | hj
      · split at h <;> obtain rfl := Option.some.inj h <;> omega
      · have := hrest hj
        split at h <;> obtain rfl := Option.some.inj h <;> omega

/-! ## The release candidate -/

theorem olderInPool_iff (s : State) (e : Entry) :
    s.olderInPool e = true ↔
      ∃ j f, s.entry j = some f ∧ (f.state = .held ∨ f.state = .stalled) ∧ f.initiator = e.initiator ∧
        f.order < e.order := by
  simp only [State.olderInPool, List.any_eq_true, List.mem_finRange, true_and]
  refine exists_congr fun j => ?_
  cases s.entry j <;> simp [Entry.inPool, and_assoc]

theorem listOpen_iff (s : State) (l : ListId) :
    s.listOpen l = true ↔ ∀ d, l = .domain d → (s.dom d).state = .active ∨ (s.dom d).state = .draining := by
  cases l <;> simp [State.listOpen]

/-- The two rules of eligibility, and the mode (R87). -/
theorem eligible_iff (s : State) (l : ListId) (e : Entry) :
    (s.mode == .governing && s.listOpen l && !((s.init e.initiator).strict && s.olderInPool e)) = true ↔
      s.mode = .governing ∧ (∀ d, l = .domain d → (s.dom d).state = .active ∨ (s.dom d).state = .draining) ∧
        ((s.init e.initiator).strict = true →
          ∀ j f, s.entry j = some f → (f.state = .held ∨ f.state = .stalled) → f.initiator = e.initiator →
            ¬f.order < e.order) := by
  have hrule : (!((s.init e.initiator).strict && s.olderInPool e)) = true ↔
      ((s.init e.initiator).strict = true → ¬s.olderInPool e = true) := by
    cases (s.init e.initiator).strict <;> simp
  rw [Bool.and_eq_true, Bool.and_eq_true, beq_iff_eq, listOpen_iff, hrule, olderInPool_iff, and_assoc]
  simp only [not_exists, not_and]

/-- The head of a list is in the release group exactly while it is eligible (R61, R87). -/
theorem eligibleHead_eq_some_iff {s : State} {l : ListId} {i : EntryIdx} :
    s.eligibleHead l = some i ↔ Eligible s l i := by
  unfold State.eligibleHead Eligible
  cases hl : s.held l with
  | nil => simp
  | cons j rest =>
    dsimp only
    cases he : s.entry j with
    | none =>
      simp only [reduceCtorEq, false_iff]
      rintro ⟨e, _, hcons, hi, _⟩
      obtain rfl := (List.cons.inj hcons).1
      simp [he] at hi
    | some e =>
      dsimp only
      constructor
      · intro h
        split at h
        · next hc =>
          obtain rfl := Option.some.inj h
          exact ⟨e, rest, rfl, he, (eligible_iff s l e).mp hc⟩
        · cases h
      · rintro ⟨f, _, hcons, hf, hc⟩
        obtain rfl := (List.cons.inj hcons).1
        obtain rfl := Option.some.inj (he.symm.trans hf)
        rw [if_pos ((eligible_iff s l e).mpr hc)]

theorem mem_releaseGroup_iff {s : State} {i : EntryIdx} : i ∈ s.releaseGroup ↔ ∃ l, Eligible s l i := by
  simp only [State.releaseGroup, List.mem_filterMap, mem_allLists, true_and, eligibleHead_eq_some_iff]

/-- Settles O35: the oldest of the release group, whose members are the eligible heads. -/
theorem releaseCandidateIsOldestEligibleHead : Obligations.ReleaseCandidateIsOldestEligibleHead := by
  intro s
  refine ⟨?_, fun i hi => ⟨mem_releaseGroup_iff.mp (mem_of_oldest hi), fun l j hj =>
    orderOf_oldest_le hi (mem_releaseGroup_iff.mpr ⟨l, hj⟩)⟩⟩
  rw [State.releaseCandidate, oldest_eq_none_iff, List.eq_nil_iff_forall_not_mem]
  simp only [mem_releaseGroup_iff, not_exists]
  exact forall_comm

/-! ## ISSUE -/

theorem exec_issue_def (s : State) : exec .issue s = execIssue s := rfl

theorem downRequest_eq (i : EntryIdx) (e : Entry) : downRequest i e = presented i e := by
  unfold downRequest presented
  cases e.direction <;> cases e.privilege <;> rfl

/-- An entry that is counted where it has a domain stays as it is (R70). -/
theorem countIn_setEntry_counted {i : EntryIdx} {f : Entry} (s : State) (hc : f.counted = f.domain?.isSome) :
    countIn i (s.setEntry i (some f)) = s.setEntry i (some f) := by
  unfold countIn
  rw [State.entry_setEntry_same]
  cases hd : f.domain? with
  | none => simp only [hd]
  | some d =>
    rw [hd, Option.isSome_some] at hc
    simp only [hd, hc, if_true]

/-- An entry that is not counted becomes counted where it has a domain (R63, R70). -/
theorem countIn_setEntry_uncounted {i : EntryIdx} {f : Entry} (s : State) (hc : f.counted = false) :
    countIn i (s.setEntry i (some f)) =
      countedIn f (s.setEntry i (some { f with counted := f.domain?.isSome })) := by
  unfold countIn countedIn
  rw [State.entry_setEntry_same]
  cases hd : f.domain? with
  | none =>
    have hsame : { f with counted := false } = f := by rw [← hc]
    simp only [hd, Option.isSome_none, hsame]
  | some d =>
    simp only [hd, hc, Bool.false_eq_true, if_false, Option.isSome_some, State.setEntry_setEntry, State.setEntry_dom]

theorem issueEntry_counted {i : EntryIdx} {e : Entry} (s : State) (hc : e.counted = e.domain?.isSome) :
    issueEntry i e s =
      { s.setEntry i (some (issuedEntry e)) with
        sent := { s.sent with downstream := s.sent.downstream ++ [presented i e] } } := by
  have hentry : { e with state := .issued, data := [] } = issuedEntry e := by rw [issuedEntry, ← hc]
  have hcount : countIn i (s.setEntry i (some (issuedEntry e))) = s.setEntry i (some (issuedEntry e)) :=
    countIn_setEntry_counted s rfl
  unfold issueEntry
  rw [hentry, hcount, downRequest_eq]
  rfl

theorem issueEntry_uncounted {i : EntryIdx} {e : Entry} (s : State) (hc : e.counted = false) :
    issueEntry i e s =
      countedIn e
        { s.setEntry i (some (issuedEntry e)) with
          sent := { s.sent with downstream := s.sent.downstream ++ [presented i e] } } := by
  have hcount : countIn i (s.setEntry i (some { e with state := .issued, data := [] })) =
      countedIn e (s.setEntry i (some (issuedEntry e))) := countIn_setEntry_uncounted s hc
  unfold issueEntry
  rw [hcount, downRequest_eq]
  unfold countedIn
  cases e.domain? <;> rfl

theorem leaveLists_eq (i : EntryIdx) (s : State) : leaveLists i s = unlisted i s := by
  simp only [leaveLists, unlisted, mapTable_eq]

theorem issueHeld_eq {i : EntryIdx} {e : Entry} (s : State) (hc : e.counted = false) :
    issueHeld i e s =
      prompted
        (countedIn e
          { (placeGiven e.initiator (unlisted i s)).setEntry i (some (issuedEntry e)) with
            issueTurn := .pass
            sent := { s.sent with downstream := s.sent.downstream ++ [presented i e] } }) := by
  unfold issueHeld
  rw [issueEntry_uncounted _ hc, leaveLists_eq, prompt_eq]
  unfold countedIn
  cases e.domain? <;> rfl

section Issue

variable {s : State} (hr : s.inReset = false) {i : EntryIdx} {e : Entry}
include hr

theorem exec_issue_of_none (hi : s.issueChoice = none) : exec .issue s = .next s := by
  rw [exec_issue_def, execIssue, hi, whileRunning_running hr]

theorem exec_issue_of_pass (hi : s.issueChoice = some i) (he : s.entry i = some e) (hs : s.stage = some i) :
    exec .issue s = .next (issuePassing i e s) := by
  simp only [exec_issue_def, execIssue, hi, he, hs, if_true, whileRunning_running hr]

theorem exec_issue_of_release (hi : s.issueChoice = some i) (he : s.entry i = some e) (hs : s.stage ≠ some i) :
    exec .issue s = .next (issueHeld i e s) := by
  simp only [exec_issue_def, execIssue, hi, he, hs, if_false, whileRunning_running hr]

end Issue

/-- The pass candidate is chosen where it is alone or has the turn (R61, R62). -/
theorem issueChoice_of_pass {s : State} {p : EntryIdx} (hs : s.stage = some p)
    (h : s.releaseCandidate = none ∨ s.issueTurn = .pass) : s.issueChoice = some p := by
  unfold State.issueChoice
  cases hr : s.releaseCandidate with
  | none => simp only [hs]
  | some r =>
    have hturn := h.resolve_left (by simp [hr])
    simp only [hs, hturn]

/-- The release candidate is chosen where it is alone or has the turn (R61, R62). -/
theorem issueChoice_of_release {s : State} {i : EntryIdx} (hr : s.releaseCandidate = some i)
    (h : s.stage = none ∨ s.issueTurn = .release) : s.issueChoice = some i := by
  unfold State.issueChoice
  cases hs : s.stage with
  | none => simp only [hr]
  | some p =>
    have hturn := h.resolve_left (by simp [hs])
    simp only [hr, hturn]

/-- Settles O34: by the candidate that the turn chooses. -/
theorem issueSendsByTurn : Obligations.IssueSendsByTurn := by
  intro s hr
  refine ⟨fun hs hn => exec_issue_of_none hr ?_, fun p e hs he hc hturn => ?_, fun i e hi he hc hs hturn => ?_⟩
  · simp only [State.issueChoice, hs, hn]
  · rw [exec_issue_of_pass hr (issueChoice_of_pass hs hturn) he hs, issuePassing, issueEntry_counted s hc]
  · rw [exec_issue_of_release hr (issueChoice_of_release hi hturn) he hs, issueHeld_eq s hc]

end Sys2Proof.Proofs
end

section
/-! Memory responses and the return arbiter: DOWNSTREAM RESPONSE by its tag, FORWARDING and DECLINE SEND by the turn (R54, R65 to
R69, R75, R146, R180). -/

namespace Sys2Proof.Proofs

-- One proof after another: the memory of a compile grows with the proofs that run at once.
set_option Elab.async false

open Sys2Proof.Machine Sys2Proof.Claims

theorem exec_downstreamResponse_def (s : State) (r : MemResponse) :
    exec (.downstreamResponse r) s = execDownstreamResponse r s := rfl

theorem exec_forwarding_def (s : State) : exec .forwarding s = execForwarding s := rfl

theorem exec_declineSend_def (s : State) : exec .declineSend s = execDeclineSend s := rfl

/-! ## DOWNSTREAM RESPONSE -/

theorem entryOf?_eq_some_iff (tag : Byte) (i : EntryIdx) : entryOf? tag = some i ↔ tag.toNat = i.val := by
  have hi := i.isLt
  unfold entryOf?
  split
  · rw [Option.some.injEq, Fin.ext_iff]
  · simp only [reduceCtorEq, false_iff]
    omega

theorem entryOf?_eq_none {tag : Byte} (h : 64 ≤ tag.toNat) : entryOf? tag = none := by
  rw [entryOf?, dif_neg (Nat.not_lt.mpr h)]

theorem freeEntry_eq {i : EntryIdx} {e : Entry} {s : State} (he : s.entry i = some e) :
    freeEntry i s = freed i e s := by
  simp only [freeEntry, he, freed]

/-- A stray response with the detail its tag gives it (R69, R146). -/
def strayed (r : MemResponse) (detail : BitVec 16) (s : State) : State :=
  offer { plain .strayResponse s.timebase with tag := r.tag, code := r.code.setWidth 8, detail := detail } s

theorem matchResponse_of_none {s : State} {r : MemResponse} (h : 64 ≤ r.tag.toNat) :
    matchResponse r s = strayed r 15 s := by
  simp only [matchResponse, strayResponse, entryOf?_eq_none h]
  rfl

/-- A response by the state of the entry that its tag names (R65, R69, R75). -/
theorem matchResponse_of_entry {s : State} {r : MemResponse} {i : EntryIdx} (h : r.tag.toNat = i.val) :
    matchResponse r s =
      match s.entry i with
      | none => strayed r 0 s
      | some e =>
        match e.state with
        | .issued => { s with forward := some r }
        | .orphaned => freed i e s
        | .passing => strayed r 1 s
        | .held => strayed r 2 s
        | .stalled => strayed r 3 s
        | .declining => strayed r 4 s := by
  have hi := (entryOf?_eq_some_iff r.tag i).mpr h
  have hstray : strayResponse r s = strayed r (strayDetail (s.entry i)) s := by
    simp only [strayResponse, hi]
    rfl
  simp only [matchResponse, hi, hstray, State.entryIn_eq_any]
  cases he : s.entry i with
  | none => rfl
  | some e =>
    cases hs : e.state
    case issued => simp [hs]
    case orphaned => simp [hs, freeEntry_eq he]
    all_goals simp [hs, strayDetail]

/-- Settles O38: by the entry that the tag names. -/
theorem downstreamResponseMatched : Obligations.DownstreamResponseMatched := by
  intro s r hr stray
  refine ⟨fun hf => ?_, fun hf => ⟨fun htag => ?_, fun i hi => ?_⟩⟩
  · obtain ⟨x, hx⟩ := Option.ne_none_iff_exists'.mp hf
    simp only [exec_downstreamResponse_def, execDownstreamResponse, hx, whileRunning_running hr]
  · simp only [exec_downstreamResponse_def, execDownstreamResponse, hf, whileRunning_running hr]
    exact congrArg _ (matchResponse_of_none htag)
  · simp only [exec_downstreamResponse_def, execDownstreamResponse, hf, whileRunning_running hr]
    exact congrArg _ (matchResponse_of_entry hi)

/-! ## The candidates of the return arbiter -/

theorem mem_declining_iff {s : State} {i : EntryIdx} :
    i ∈ allEntries.filter (fun i => s.entryIn i .declining) ↔ ∃ g, s.entry i = some g ∧ g.state = .declining := by
  rw [List.mem_filter, and_iff_right (List.mem_finRange i), State.entryIn_eq_any]
  cases s.entry i <;> simp

theorem declineCandidate_eq_none_iff {s : State} :
    s.declineCandidate = none ↔ ¬∃ k g, s.entry k = some g ∧ g.state = .declining := by
  rw [State.declineCandidate, oldest_eq_none_iff, List.eq_nil_iff_forall_not_mem]
  simp only [mem_declining_iff, not_exists]

/-- The oldest DECLINING entry is the decline candidate (R67). -/
theorem declineCandidate_eq_some {s : State} {j : EntryIdx} {f : Entry} (hj : s.entry j = some f)
    (hs : f.state = .declining)
    (hold : ∀ k g, s.entry k = some g → g.state = .declining → k ≠ j → f.order < g.order) :
    s.declineCandidate = some j := by
  cases hc : s.declineCandidate with
  | none => exact absurd ⟨j, f, hj, hs⟩ (declineCandidate_eq_none_iff.mp hc)
  | some k =>
    obtain ⟨g, hg, hgs⟩ := mem_declining_iff.mp (mem_of_oldest hc)
    have hle := orderOf_oldest_le hc (mem_declining_iff.mpr ⟨f, hj, hs⟩)
    rw [State.orderOf, State.orderOf, hg, hj] at hle
    by_contra hne
    exact absurd (hold k g hg hgs fun heq => hne (heq ▸ rfl)) (Nat.not_lt.mpr hle)

theorem forwardCandidate_eq_some {s : State} {i : EntryIdx} {e : Entry} {r : MemResponse} (hf : s.forward = some r)
    (ht : r.tag.toNat = i.val) (he : s.entry i = some e) (hs : e.state = .issued) : s.forwardCandidate = some i := by
  have hin : s.entryIn i .issued = true := hs ▸ entryIn_of_entry he
  simp only [State.forwardCandidate, hf, (entryOf?_eq_some_iff r.tag i).mpr ht, hin, if_true]

theorem forwardCandidate_eq_none {s : State} (hf : s.forward = none) : s.forwardCandidate = none := by
  simp only [State.forwardCandidate, hf]

/-! ## The responses sent upstream -/

theorem lanesOf_nil : lanesOf [] = Vector.replicate 64 0 := by
  ext i hi
  simp [lanesOf]

/-- A lane of a forwarded read: what memory gave below the entry's length, and 0x00 elsewhere (R54, R180). -/
theorem getD_forwardedData (n : Nat) (r : MemResponse) (k : Fin 64) :
    (forwardedData n r).getD k.val 0 = if k.val < n ∧ k.val < r.dataCount.toNat then r.lanes[k] else 0 := by
  have hlen : (r.lanes.toList.take (min r.dataCount.toNat 64)).length = min r.dataCount.toNat 64 := by simp
  rw [forwardedData, List.getD_eq_getElem?_getD, List.getElem?_take]
  by_cases hn : k.val < n
  · rw [if_pos hn]
    by_cases hd : k.val < r.dataCount.toNat
    · have hgiven : k.val < min r.dataCount.toNat 64 := lt_min hd k.isLt
      rw [List.getElem?_append_left (hlen.symm ▸ hgiven), List.getElem?_take, if_pos hgiven, if_pos ⟨hn, hd⟩]
      simp
    · have hrest : min r.dataCount.toNat 64 ≤ k.val := (min_le_left ..).trans (Nat.le_of_not_lt hd)
      rw [List.getElem?_append_right (hlen.symm ▸ hrest), if_neg fun h => hd h.2, List.getElem?_replicate]
      split <;> rfl
  · rw [if_neg hn, if_neg fun h => hn h.1]
    rfl

theorem lanesOf_forwardedData (n : Nat) (r : MemResponse) :
    lanesOf (forwardedData n r) =
      Vector.ofFn (fun k : Fin 64 => if k.val < n ∧ k.val < r.dataCount.toNat then r.lanes[k] else 0) :=
  congrArg Vector.ofFn (funext (getD_forwardedData n r))

theorem forwardedResponse_eq (e : Entry) (r : MemResponse) :
    forwardedResponse e r =
      if e.direction = .read ∧ r.code = 0 then
        ⟨e.initiator, e.tag, 0, BitVec.ofNat 7 e.length,
          Vector.ofFn (fun k : Fin 64 => if k.val < e.length ∧ k.val < r.dataCount.toNat then r.lanes[k] else 0)⟩
      else ⟨e.initiator, e.tag, if r.code = 0 then 0 else 1, 0, Vector.replicate 64 0⟩ := by
  rw [forwardedResponse, lanesOf_forwardedData, lanesOf_nil]
  rfl

theorem declineResponse_eq (e : Entry) (c : DeclineCode) :
    declineResponse e c = ⟨e.initiator, e.tag, c.value, 0, Vector.replicate 64 0⟩ := by
  rw [declineResponse, lanesOf_nil]

/-! ## FORWARDING and DECLINE SEND -/

section Arbiter

variable {s : State} (hr : s.inReset = false)
include hr

theorem exec_forwarding_of_candidate {i : EntryIdx} {e : Entry} {r : MemResponse} (hc : s.forwardCandidate = some i)
    (hf : s.forward = some r) (he : s.entry i = some e)
    (hturn : s.returnTurn = .forward ∨ s.declineCandidate = none) :
    exec .forwarding s = .next (forwardEntry i e r s) := by
  have hnext : s.forwardsNext = true := by
    rcases hturn with h | h <;> simp [State.forwardsNext, hc, h]
  simp only [exec_forwarding_def, execForwarding, hnext, hc, hf, he, if_true, whileRunning_running hr]

theorem exec_forwarding_of_not_next (h : s.forwardsNext = false) : exec .forwarding s = .next s := by
  rw [exec_forwarding_def, execForwarding, h, if_neg Bool.false_ne_true, whileRunning_running hr]

theorem exec_declineSend_of_candidate {j : EntryIdx} {f : Entry} {c : DeclineCode} (hj : s.declineCandidate = some j)
    (hf : s.entry j = some f) (hc : f.code = some c) (hturn : s.returnTurn = .decline ∨ s.forwardCandidate = none) :
    exec .declineSend s = .next (sendDecline j f c s) := by
  have hnext : s.declinesNext = true := by
    rcases hturn with h | h <;> simp [State.declinesNext, hj, h]
  simp only [exec_declineSend_def, execDeclineSend, hnext, hj, hf, hc, if_true, whileRunning_running hr]

theorem exec_declineSend_of_not_next (h : s.declinesNext = false) : exec .declineSend s = .next s := by
  rw [exec_declineSend_def, execDeclineSend, h, if_neg Bool.false_ne_true, whileRunning_running hr]

end Arbiter

theorem forwardEntry_eq {i : EntryIdx} {e : Entry} {s : State} (r : MemResponse) (he : s.entry i = some e) :
    forwardEntry i e r s =
      { freed i e s with
        forward := none, returnTurn := .decline
        sent := { s.sent with upstream := s.sent.upstream ++ [forwardedResponse e r] } } := by
  obtain ⟨_, _, h⟩ := freeEntry_frame i s
  rw [forwardEntry, ← freeEntry_eq he, h]

theorem sendDecline_eq {j : EntryIdx} {f : Entry} {s : State} (c : DeclineCode) (hf : s.entry j = some f) :
    sendDecline j f c s =
      { freed j f s with
        returnTurn := .forward
        sent := { s.sent with upstream := s.sent.upstream ++ [declineResponse f c] } } := by
  obtain ⟨_, _, h⟩ := freeEntry_frame j s
  rw [sendDecline, ← freeEntry_eq hf, h]

/-- Settles O39: by the candidates and the turn. -/
theorem returnArbiterSendsByTurn : Obligations.ReturnArbiterSendsByTurn := by
  intro s hr declining oldest waits
  have hnone : s.declineCandidate = none ↔ ¬declining := declineCandidate_eq_none_iff
  refine ⟨fun i e r ⟨hf, ht, he, hs⟩ hturn => ?_, fun h => exec_forwarding_of_not_next hr ?_,
    fun j f c ⟨hj, hs, hold⟩ hc hturn => ?_, fun h => exec_declineSend_of_not_next hr ?_,
    fun i e r ⟨hf, ht, he, hs⟩ hturn => exec_declineSend_of_not_next hr ?_⟩
  · rw [exec_forwarding_of_candidate hr (forwardCandidate_eq_some hf ht he hs) hf he (hturn.imp_right hnone.mpr),
      forwardEntry_eq r he, forwardedResponse_eq]
  · rcases h with h | ⟨hturn, hd⟩
    · rw [State.forwardsNext, forwardCandidate_eq_none h]
      rfl
    · have hsome : s.declineCandidate.isNone = false := by
        rw [Option.isNone_eq_false_iff, Option.isSome_iff_ne_none]
        exact fun h => hnone.mp h hd
      rw [State.forwardsNext, hturn, hsome]
      exact Bool.and_false _
  · rw [exec_declineSend_of_candidate hr (declineCandidate_eq_some hj hs hold) hj hc
      (hturn.imp_right forwardCandidate_eq_none), sendDecline_eq c hj, declineResponse_eq]
  · rw [State.declinesNext, hnone.mpr h]
    rfl
  · rw [State.declinesNext, hturn, forwardCandidate_eq_some hf ht he hs]
    exact Bool.and_false _

end Sys2Proof.Proofs
end

section
/-! The laws of the traffic that waits: a sleeping domain's list is empty but for a pending wake, a PASSING entry is alone in
its list, and a guarded read finds its domain's contents valid (R101, R108, R110, R111). What the laws read of State, and what
keeps them where traffic only leaves or one domain moves. -/

namespace Sys2Proof.Machine

-- One proof after another: the memory of a compile grows with the proofs that run at once.
set_option Elab.async false

open Sys2Proof.Claims Sys2Proof.Proofs

/-! ## The laws by domain -/

/-- The laws of the traffic that waits. -/
abbrev WaitLaw (s : State) : Prop :=
  HoldLawKept s ∧ PassAloneKept s ∧ GuardKept s

/-- The law of R101 and R110 at one domain, were this its record. -/
def Sleeps (s : State) (d : DomainId) (x : Domain) : Prop :=
  (x.state = .low → s.held (.domain d) = [] ∨ s.wakeOutstanding d = true) ∧
  (x.state = .fault →
    s.held (.domain d) = [] ∧ ∀ i, ∀ e ∈ s.entry i, e.state = .stalled → e.domain? ≠ some d) ∧
  (x.state = .entering → s.held (.domain d) = [] ∨ x.wakePending = true ∨ s.wakeOutstanding d = true)

theorem WaitLaw.sleeps {s : State} (h : WaitLaw s) (d : DomainId) : Sleeps s d (s.dom d) := h.1 d

/-- The entry has no answer yet: it waits for its issue or is in flight (R58). -/
def Entry.unanswered (e : Entry) : Bool :=
  e.inPool || e.inFlight

/-- No guarded read of the domain is without its answer. -/
def Unguarded (s : State) (d : DomainId) : Prop :=
  ∀ i e, s.entry i = some e → e.guarded = true → e.unanswered = true → e.domain? ≠ some d

theorem guardKept_iff (s : State) : GuardKept s ↔ ∀ d, (s.dom d).contentsValid = true ∨ Unguarded s d := by
  constructor
  · intro h d
    by_cases hv : (s.dom d).contentsValid = true
    · exact .inl hv
    · exact .inr fun i e he hg hu hd => hv (h i e he hg hu d hd)
  · intro h i e he hg hu d hd
    exact (h d).resolve_right fun hn => hn i e he hg hu hd

/-- A domain that is up or on its way up may have any list. -/
theorem sleeps_awake {s : State} {d : DomainId} {x : Domain}
    (h : x.state = .active ∨ x.state = .draining ∨ x.state = .exiting) : Sleeps s d x := by
  rcases h with h | h | h <;> simp [Sleeps, h]

/-- A domain that is not in FAULT may sleep over an empty list. -/
theorem sleeps_of_empty {s : State} {d : DomainId} {x : Domain} (hh : s.held (.domain d) = []) (hf : x.state ≠ .fault) :
    Sleeps s d x :=
  ⟨fun _ => .inl hh, fun h => absurd h hf, fun _ => .inl hh⟩

theorem Sleeps.congr {s : State} {d : DomainId} {x y : Domain} (h : Sleeps s d x) (hs : y.state = x.state)
    (hw : x.wakePending = true → y.wakePending = true) : Sleeps s d y := by
  obtain ⟨hlow, hfault, hentering⟩ := h
  exact ⟨hs ▸ hlow, hs ▸ hfault, fun he => (hentering (hs ▸ he)).imp_right (Or.imp_left hw)⟩

/-- A LOW domain may be stepped down further, or up again by management's word (R15, R23, R27). -/
theorem Sleeps.entering_of_low {s : State} {d : DomainId} {x y : Domain} (h : Sleeps s d x) (hx : x.state = .low)
    (hy : y.state = .entering) : Sleeps s d y := by
  obtain ⟨hlow, _, _⟩ := h
  exact ⟨by simp [hy], by simp [hy], fun _ => (hlow hx).imp_right .inr⟩

/-- A domain may reach LOW from ENTERING where nothing calls it up again (R13). -/
theorem Sleeps.low_of_entering {s : State} {d : DomainId} {x y : Domain} (h : Sleeps s d x) (hx : x.state = .entering)
    (hw : x.wakePending = false) (hy : y.state = .low) : Sleeps s d y := by
  obtain ⟨_, _, hentering⟩ := h
  exact ⟨fun _ => (hentering hx).imp_right fun ho => ho.resolve_left (by simp [hw]), by simp [hy], by simp [hy]⟩

/-! ## Traffic that only leaves -/

/-- The entry `f` is what has become of `e`, which has neither come to pass nor been STALLED. -/
structure Continues (e f : Entry) : Prop where
  list : f.list = e.list
  guarded : f.guarded = e.guarded
  passing : f.state = .passing → e.state = .passing
  stalled : f.state = .stalled → e.state = .stalled
  unanswered : f.unanswered = true → e.unanswered = true

theorem Continues.refl (e : Entry) : Continues e e := ⟨rfl, rfl, id, id, id⟩

theorem Continues.trans {e f g : Entry} (h : Continues e f) (h' : Continues f g) : Continues e g :=
  ⟨h'.list.trans h.list, h'.guarded.trans h.guarded, h.passing ∘ h'.passing, h.stalled ∘ h'.stalled,
    h.unanswered ∘ h'.unanswered⟩

theorem Continues.domain?_eq {e f : Entry} (h : Continues e f) : f.domain? = e.domain? := by
  rw [Entry.domain?, Entry.domain?, h.list]

theorem continues_declined (c : DeclineCode) (e : Entry) : Continues e (e.declined c) := ⟨rfl, rfl, nofun, nofun, nofun⟩

/-- An entry without an answer goes on in flight, neither PASSING nor STALLED. -/
theorem continues_of_unanswered {e f : Entry} (hl : f.list = e.list) (hg : f.guarded = e.guarded)
    (hs : f.state = .issued ∨ f.state = .orphaned) (he : e.unanswered = true) : Continues e f :=
  ⟨hl, hg, fun h => by simp [h] at hs, fun h => by simp [h] at hs, fun _ => he⟩

/-- No entry has been accepted or decided anew, no list is longer, and the notices are as they were. -/
structure Lightens (s t : State) : Prop where
  held : ∀ l, t.held l ⊆ s.held l
  entry : ∀ i f, t.entry i = some f → ∃ e, s.entry i = some e ∧ Continues e f
  notices : t.notices = s.notices

theorem Lightens.held_nil {s t : State} (h : Lightens s t) {l : ListId} (hl : s.held l = []) : t.held l = [] :=
  List.subset_nil.mp (hl ▸ h.held l)

theorem Lightens.wakeOutstanding {s t : State} (h : Lightens s t) (d : DomainId) :
    t.wakeOutstanding d = s.wakeOutstanding d := by
  rw [State.wakeOutstanding, State.wakeOutstanding, h.notices]

theorem Lightens.refl (s : State) : Lightens s s :=
  ⟨fun _ => List.Subset.refl _, fun _ f hf => ⟨f, hf, .refl f⟩, rfl⟩

theorem Lightens.trans {s t u : State} (h : Lightens s t) (h' : Lightens t u) : Lightens s u where
  held l := List.Subset.trans (h'.held l) (h.held l)
  entry i g hg := by
    obtain ⟨f, hf, hfg⟩ := h'.entry i g hg
    obtain ⟨e, he, hef⟩ := h.entry i f hf
    exact ⟨e, he, hef.trans hfg⟩
  notices := h'.notices.trans h.notices

/-- One entry goes on, or is freed, and the rest of the pool is as it was. -/
theorem lightens_of_puts {i : EntryIdx} {x : Option Entry} {s t : State} (h : Puts i x s t)
    (hx : ∀ f, x = some f → ∃ e, s.entry i = some e ∧ Continues e f) (hn : t.notices = s.notices) : Lightens s t := by
  refine ⟨fun l => ?_, fun j f hf => ?_, hn⟩
  · rw [held_of_pool h.rest l]
    exact List.Subset.refl _
  · rcases replaced_cases h.entry hf with ⟨rfl, hx'⟩ | ⟨-, hj⟩
    · exact hx f hx'
    · exact ⟨f, hj, .refl f⟩

theorem lightens_of_pool {s t : State} (hp : t.pool = s.pool) (hn : t.notices = s.notices) : Lightens s t := by
  have hentry : ∀ i, t.entry i = s.entry i := fun i => congrArg (fun p : Pool => p.table[i]) hp
  refine ⟨fun l => ?_, fun i f hf => ⟨f, hentry i ▸ hf, .refl f⟩, hn⟩
  rw [held_of_pool (hp.trans rfl) l]
  exact List.Subset.refl _

theorem Sleeps.lightens {s t : State} {d : DomainId} {x : Domain} (h : Sleeps s d x) (hl : Lightens s t) :
    Sleeps t d x := by
  obtain ⟨hlow, hfault, hentering⟩ := h
  rw [Sleeps, hl.wakeOutstanding]
  refine ⟨fun hs => (hlow hs).imp_left hl.held_nil, fun hs => ⟨hl.held_nil (hfault hs).1, fun i f hf hst => ?_⟩,
    fun hs => (hentering hs).imp_left hl.held_nil⟩
  obtain ⟨e, he, hef⟩ := hl.entry i f hf
  rw [hef.domain?_eq]
  exact (hfault hs).2 i e he (hef.stalled hst)

theorem Unguarded.lightens {s t : State} {d : DomainId} (h : Unguarded s d) (hl : Lightens s t) : Unguarded t d := by
  intro i f hf hg hu
  obtain ⟨e, he, hef⟩ := hl.entry i f hf
  rw [hef.domain?_eq]
  exact h i e he (hef.guarded ▸ hg) (hef.unanswered hu)

theorem passAloneKept_of_lightens {s t : State} (h : PassAloneKept s) (hl : Lightens s t) : PassAloneKept t := by
  intro i f hf hs l hfl
  obtain ⟨e, he, hef⟩ := hl.entry i f hf
  exact hl.held_nil (h i e he (hef.passing hs) l (hef.list ▸ hfl))

/-- Traffic has only left, and every domain has come to a record that its list allows. -/
theorem waitLaw_of_lightens {s t : State} (h : WaitLaw s) (hl : Lightens s t) (hd : ∀ d, Sleeps t d (t.dom d))
    (hv : ∀ d, (s.dom d).contentsValid = true → (t.dom d).contentsValid = true ∨ Unguarded t d) : WaitLaw t := by
  obtain ⟨_, hpass, hguard⟩ := h
  refine ⟨hd, passAloneKept_of_lightens hpass hl, (guardKept_iff t).mpr fun d => ?_⟩
  rcases (guardKept_iff s).mp hguard d with hvalid | hnone
  · exact hv d hvalid
  · exact .inr (hnone.lightens hl)

/-- Traffic has only left, and at most in-flight counts have changed of the domains. -/
theorem waitLaw_of_recounts {s t : State} (h : WaitLaw s) (hl : Lightens s t) (hr : Recounts s t) : WaitLaw t := by
  refine waitLaw_of_lightens h hl (fun d => ?_) fun d hv => .inl ?_
  · obtain ⟨k, hk⟩ := hr.dom d
    rw [hk]
    exact ((h.sleeps d).lightens hl).congr rfl id
  · obtain ⟨k, hk⟩ := hr.dom d
    rw [hk]
    exact hv

/-- Traffic has only left, and one domain has come to a record that its list allows. -/
theorem waitLaw_of_move {s t : State} (h : WaitLaw s) (hl : Lightens s t) {d : DomainId}
    (helse : ∀ c, c ≠ d → t.dom c = s.dom c) (hd : Sleeps t d (t.dom d))
    (hv : (s.dom d).contentsValid = true → (t.dom d).contentsValid = true ∨ Unguarded t d) : WaitLaw t := by
  refine waitLaw_of_lightens h hl (fun c => ?_) fun c => ?_
  · by_cases hc : c = d
    · exact hc ▸ hd
    · rw [helse c hc]
      exact (h.sleeps c).lightens hl
  · by_cases hc : c = d
    · exact hc ▸ hv
    · rw [helse c hc]
      exact .inl

/-! ## What the operations of the link leave -/

theorem unanswered_of_state {e : Entry} (h : e.state ≠ .declining) : e.unanswered = true := by
  cases hs : e.state <;> simp_all [Entry.unanswered, Entry.inPool, Entry.inFlight]

theorem lightens_freeEntry (i : EntryIdx) (s : State) : Lightens s (freeEntry i s) := by
  obtain ⟨_, _, h⟩ := freeEntry_frame i s
  exact lightens_of_puts (puts_freeEntry i s) (by simp) (by rw [h])

theorem lightens_issueEntry {i : EntryIdx} {e : Entry} {s : State} (he : s.entry i = some e)
    (hs : e.state ≠ .declining) : Lightens s (issueEntry i e s) := by
  refine lightens_of_puts (puts_issueEntry i e s) ?_ ?_
  · rintro f ⟨⟩
    exact ⟨e, he, continues_of_unanswered rfl rfl (.inl rfl) (unanswered_of_state hs)⟩
  · obtain ⟨_, _, h⟩ := countIn_frame i (s.setEntry i (some { e with state := .issued, data := [] }))
    unfold issueEntry
    rw [h]
    rfl

theorem lightens_leaveLists (i : EntryIdx) (s : State) : Lightens s (leaveLists i s) := by
  refine ⟨fun l => ?_, fun j f hf => ⟨f, hf, .refl f⟩, rfl⟩
  rw [leaveLists_held]
  exact List.filter_subset_self _

theorem lightens_issueHeld {i : EntryIdx} {e : Entry} {s : State} (he : s.entry i = some e)
    (hs : e.state ≠ .declining) : Lightens s (issueHeld i e s) := by
  have hgive : Lightens (leaveLists i s) (givePlace e.initiator (leaveLists i s)) :=
    ⟨fun l => by cases l <;> exact List.Subset.refl _, fun _ f hf => ⟨f, hf, .refl f⟩, rfl⟩
  have hturn : ∀ u : State, Lightens u (prompt { u with issueTurn := .pass }) := fun u =>
    lightens_of_pool (pool_prompt _) (by rw [prompt_eq])
  exact (((lightens_leaveLists i s).trans hgive).trans (lightens_issueEntry he hs)).trans (hturn _)

theorem lightens_declineHeld (c : DeclineCode) (s : State) (i : EntryIdx) : Lightens s (declineHeld c s i) := by
  refine ⟨fun l => ?_, fun j f hf => ?_, ?_⟩
  · rw [declineHeld_held]
    exact List.filter_subset_self _
  · rcases replaced_cases (declineHeld_entry c s i) hf with ⟨rfl, hx⟩ | ⟨-, hj⟩
    · obtain ⟨e, he, rfl⟩ := Option.map_eq_some_iff.mp hx
      exact ⟨e, he, continues_declined c e⟩
    · exact ⟨f, hj, .refl f⟩
  · obtain ⟨_, _, _, _, _, _, h⟩ := declineHeld_frame c s i
    rw [h]

theorem lightens_declineStalled (c : DeclineCode) (s : State) (i : EntryIdx) : Lightens s (declineStalled c s i) := by
  refine ⟨fun l => ?_, fun j f hf => ?_, ?_⟩
  · obtain ⟨_, _, _, _, h⟩ := declineStalled_frame c s i
    rw [h]
    cases l <;> exact List.Subset.refl _
  · rcases replaced_cases (declineStalled_entry c s i) hf with ⟨rfl, hx⟩ | ⟨-, hj⟩
    · obtain ⟨e, he, rfl⟩ := Option.map_eq_some_iff.mp hx
      exact ⟨e, he, continues_declined c e⟩
    · exact ⟨f, hj, .refl f⟩
  · obtain ⟨_, _, _, _, h⟩ := declineStalled_frame c s i
    rw [h]

theorem lightens_prompt (s : State) : Lightens s (prompt s) :=
  lightens_of_pool (pool_prompt s) (by rw [prompt_eq])

theorem lightens_offer (e : Event) (s : State) : Lightens s (offer e s) :=
  lightens_of_pool (pool_offer e s) (by rw [offer_eq])

theorem lightens_foldl {f : State → EntryIdx → State} (hf : ∀ s i, Lightens s (f s i)) (l : List EntryIdx)
    (s : State) : Lightens s (l.foldl f s) := by
  induction l generalizing s with
  | nil => exact .refl s
  | cons i l ih => exact (hf s i).trans (ih (f s i))

theorem lightens_massDecline (d : DomainId) (sel selStalled : Entry → Bool) (c : DeclineCode) (s : State) :
    Lightens s (massDecline d sel selStalled c s) := by
  have key := (lightens_foldl (lightens_declineHeld c) (selectedHeld d sel s) s).trans
    (lightens_foldl (lightens_declineStalled c) (selectedStalled d selStalled s) _)
  unfold massDecline
  dsimp only
  split
  · exact key
  · exact key.trans (lightens_prompt _)

/-- A port reset leaves orphans alone, and the lists empty (R73). -/
theorem lightens_resetPort (s : State) : Lightens s (resetPort s) := by
  have hafter : ∀ u : State, Lightens u (resetPortAfter s u) := fun u =>
    ⟨fun l => by cases l <;> exact List.Subset.refl _, fun _ f hf => ⟨f, hf, .refl f⟩, rfl⟩
  rw [resetPort_eq]
  refine Lightens.trans ⟨fun l => ?_, fun i f hf => ?_, ?_⟩ (hafter _)
  · rw [emptied_held]
    exact List.nil_subset _
  · rw [emptied_entry] at hf
    split at hf
    · cases hf
    obtain ⟨e, he, hef⟩ := Option.bind_eq_some_iff.mp hf
    unfold Entry.afterReset at hef
    split at hef
    · next hreached =>
      obtain rfl := Option.some.inj hef
      exact ⟨e, he, continues_of_unanswered rfl rfl (.inr rfl)
        (unanswered_of_state fun hs => by simp [Entry.reached, hs] at hreached)⟩
    · cases hef
  · obtain ⟨_, _, _, _, h⟩ := emptied_frame s
    rw [h]

end Sys2Proof.Machine
end

section
/-! The moves of the domain state machine keep the laws of the traffic that waits (R7 to R32, R101, R110, R111). -/

namespace Sys2Proof.Machine

-- One proof after another: the memory of a compile grows with the proofs that run at once.
set_option Elab.async false

open Sys2Proof.Claims Sys2Proof.Proofs

/-! ## One record replaced -/

section Moves

variable {s : State} (h : WaitLaw s) (d : DomainId)
include h

theorem waitLaw_setDom {y : Domain} (hy : Sleeps s d y)
    (hv : (s.dom d).contentsValid = true → y.contentsValid = true) : WaitLaw (s.setDom d y) := by
  have hl : Lightens s (s.setDom d y) := lightens_of_pool rfl rfl
  refine waitLaw_of_move (d := d) h hl (fun c hc => State.dom_setDom_ne s hc y) ?_ fun hx => .inl ?_
  · rw [State.dom_setDom_same]
    exact hy.lightens hl
  · rw [State.dom_setDom_same]
    exact hv hx

/-- The record keeps its state, wake-pending and contents-valid. -/
theorem waitLaw_setDom_same {y : Domain} (hs : y.state = (s.dom d).state)
    (hw : (s.dom d).wakePending = true → y.wakePending = true)
    (hv : (s.dom d).contentsValid = true → y.contentsValid = true) : WaitLaw (s.setDom d y) :=
  waitLaw_setDom h d ((h.sleeps d).congr hs hw) hv

/-- The domain is up, or on its way up. -/
theorem waitLaw_setDom_awake {y : Domain} (hs : y.state = .active ∨ y.state = .draining ∨ y.state = .exiting)
    (hv : y.contentsValid = (s.dom d).contentsValid) : WaitLaw (s.setDom d y) :=
  waitLaw_setDom h d (sleeps_awake hs) fun hx => hv.trans hx

omit d in
theorem waitLaw_offer (e : Event) : WaitLaw (offer e s) :=
  waitLaw_of_recounts h (lightens_offer e s) (beside_offer e s).recounts

omit d in
theorem waitLaw_reply (status : Status) (bytes : List Byte) : WaitLaw (reply status bytes s) := h

theorem waitLaw_actionReply (n : Nat) : WaitLaw (actionReply d n s) := h

theorem waitLaw_active : WaitLaw (active d s) :=
  waitLaw_setDom_awake h d (.inl rfl) rfl

theorem waitLaw_enterActive : WaitLaw (enterActive d s) :=
  enterActive_eq d s ▸ waitLaw_active h d

theorem waitLaw_waking : WaitLaw (waking d s) :=
  waitLaw_setDom_awake h d (.inr (.inr rfl)) rfl

/-- LOWER is handed to a LOW domain, or over an empty list (R11, R15). -/
theorem waitLaw_lowering (l : Level) (hs : (s.dom d).state = .low ∨ s.held (.domain d) = []) :
    WaitLaw (lowering d l s) := by
  refine waitLaw_setDom h d ?_ id
  rcases hs with hs | hs
  · exact (h.sleeps d).entering_of_low hs rfl
  · exact sleeps_of_empty hs nofun

theorem waitLaw_enterDraining (l : Level) : WaitLaw (enterDraining d l s) :=
  waitLaw_setDom_awake h d (.inr (.inl rfl)) rfl

theorem waitLaw_drained : WaitLaw (drained d s) := by
  unfold drained
  split
  · next hz => exact waitLaw_lowering h d _ (.inr hz.2.2)
  · exact h

theorem waitLaw_completeDrain : WaitLaw (completeDrain d s) :=
  completeDrain_eq d s ▸ waitLaw_drained h d

theorem waitLaw_reloadIdle : WaitLaw (reloadIdle d s) := waitLaw_setDom_same h d rfl id id

theorem waitLaw_loadDeep : WaitLaw (loadDeep d s) := waitLaw_setDom_same h d rfl id id

theorem waitLaw_setWakePending : WaitLaw (setWakePending d s) := waitLaw_setDom_same h d rfl (fun _ => rfl) id

/-! ## The rows of the domain controller -/

theorem waitLaw_takeUp : WaitLaw (takeUp d s) := by
  unfold takeUp
  split
  · exact waitLaw_reloadIdle h d
  · exact waitLaw_enterActive h d
  · exact waitLaw_setWakePending h d
  · exact waitLaw_waking h d
  · exact h
  · exact h

omit d in
theorem waitLaw_actOnNotice (n : Notice) : WaitLaw (actOnNotice n s) := by
  unfold actOnNotice
  split
  · split
    · exact waitLaw_reloadIdle h _
    · exact h
  · split
    · exact waitLaw_enterActive h _
    · exact h
  · split
    · exact waitLaw_setWakePending h _
    · exact h
  · split
    · exact waitLaw_waking h _
    · exact h
  · exact h
  · exact h

theorem waitLaw_takeKeep : WaitLaw (takeKeep d s) := by
  unfold takeKeep
  split
  · exact waitLaw_reloadIdle h d
  · exact waitLaw_enterActive h d
  · exact h

omit d in
theorem waitLaw_takeRaiseClaim (c : Claim) : WaitLaw (takeRaiseClaim c s) := by
  unfold takeRaiseClaim
  dsimp only
  split
  · exact waitLaw_offer h _
  · exact h
  · split
    · exact waitLaw_offer h _
    · exact waitLaw_takeUp h _

theorem waitLaw_takeRaise : WaitLaw (takeRaise d s) := by
  unfold takeRaise
  dsimp only
  split
  · exact h
  · exact waitLaw_takeUp h d
  · exact waitLaw_takeUp h d
  · split
    · exact h
    · exact waitLaw_takeUp h d

theorem waitLaw_takeLower (l : Level) : WaitLaw (takeLower d l s) := by
  have hno : ∀ status, WaitLaw (actionRefused status s) := fun _ => h
  have hok : ∀ t, WaitLaw t → WaitLaw (actionReply d 0 t) := fun _ ht => ht
  cases hs : (s.dom d).state
  case active =>
    simp only [takeLower, hs]
    split_ifs
    · exact hno .busy
    · exact hno .badValue
    · exact hok _ (waitLaw_completeDrain (waitLaw_enterDraining h d l) d)
  case draining =>
    simp only [takeLower, hs]
    split_ifs
    · exact hno .busy
    · exact hno .badValue
    · exact hok _ (waitLaw_setDom_same h d hs.symm id id)
  case low =>
    rw [takeLower_low hs]
    split_ifs
    exacts [h, h, h, h, h, h, hok _ (waitLaw_lowering h d .off (.inl hs))]
  all_goals
    simp only [takeLower, hs]
    exact hno .busy

theorem waitLaw_applyLimits : WaitLaw (applyLimits d s) := by
  unfold applyLimits
  dsimp only
  split
  · exact waitLaw_reloadIdle h d
  · split
    · exact waitLaw_loadDeep h d
    · exact h
  · split
    · exact waitLaw_setDom_same h d rfl id id
    · exact h
  · exact h

theorem waitLaw_applyPin : WaitLaw (applyPin d s) := by
  unfold applyPin
  dsimp only
  split
  · exact h
  · split
    · exact waitLaw_enterActive h d
    · exact waitLaw_setWakePending h d
    · exact waitLaw_waking h d
    · exact h
  · split
    · exact waitLaw_enterDraining h d _
    · exact waitLaw_setDom_same h d rfl id id
    · next hs =>
      split
      · exact waitLaw_lowering h d _ (.inl hs)
      · exact h
    · exact h

theorem waitLaw_takeConfig (c : DomainConfig) : WaitLaw (takeConfig d c s) := by
  have hstore : WaitLaw (storeConfig d c s) := waitLaw_setDom_same h d rfl id id
  unfold takeConfig
  dsimp only
  split
  · exact waitLaw_applyPin (waitLaw_applyLimits hstore d) d
  · exact hstore

theorem waitLaw_takeSwitch : WaitLaw (takeSwitch d s) := by
  unfold takeSwitch
  split
  · split
    · exact waitLaw_completeDrain (waitLaw_enterDraining h d _) d
    · exact waitLaw_reloadIdle h d
  · exact h

end Moves

end Sys2Proof.Machine
end

section
/-! The mass declines, the acknowledges and the assumptions of CLEAR FAULT keep the laws of the traffic that waits (R5, R13,
R18, R19, R28, R101 to R103, R111). -/

namespace Sys2Proof.Machine

-- One proof after another: the memory of a compile grows with the proofs that run at once.
set_option Elab.async false

open Sys2Proof.Claims Sys2Proof.Proofs

/-! ## What no entry is left to do -/

/-- A domain with nothing in flight has no entry in flight (R50). -/
theorem inFlight_eq_false {s : State} (hc : CountsKept s) {d : DomainId} (hz : (s.dom d).inFlight = 0) {i : EntryIdx}
    {e : Entry} (he : s.entry i = some e) (hd : e.domain? = some d) : e.inFlight = false := by
  obtain ⟨_, hcount⟩ := hc
  rw [hcount, State.countEntries, List.countP_eq_zero] at hz
  simpa [he, hd] using hz i (List.mem_finRange i)

/-- A faulted domain has no guarded read without its answer (R19, R70, R101). -/
theorem unguarded_of_fault {s : State} (h : WaitLaw s) (hp : PoolKept s) (hc : CountsKept s) {d : DomainId}
    (hz : (s.dom d).inFlight = 0) (hs : (s.dom d).state = .fault) : Unguarded s d := by
  obtain ⟨_, hfault, _⟩ := h.sleeps d
  obtain ⟨hempty, hnone⟩ := hfault hs
  obtain ⟨_, ⟨_, hlisted, _⟩, _⟩ := hp
  intro i e he _ hu hd
  rw [Entry.unanswered, inFlight_eq_false hc hz he hd, Bool.or_false, Entry.inPool, Bool.or_eq_true, beq_iff_eq,
    beq_iff_eq] at hu
  rcases hu with hheld | hstalled
  · obtain ⟨l, hl, hi⟩ := hlisted i e he hheld
    obtain rfl : l = .domain d := Option.some.inj (hl.symm.trans (domain?_eq_some_iff.mp hd))
    simp [hempty] at hi
  · exact hnone i e he hstalled hd

section MassDecline

variable {s : State} (hp : PoolKept s) (d : DomainId) (c : DeclineCode)
include hp

/-- An entry after a mass decline that has no answer is one that was not chosen. -/
theorem massDecline_unanswered {sel selStalled : Entry → Bool} {i : EntryIdx} {f : Entry}
    (hf : (massDecline d sel selStalled c s).entry i = some f) (hu : f.unanswered = true) :
    s.entry i = some f ∧ listedIn d sel f = false ∧ parkedIn d selStalled f = false := by
  rw [(declinedAll_massDecline hp d sel selStalled c).entry] at hf
  split at hf
  · obtain ⟨e, _, rfl⟩ := Option.map_eq_some_iff.mp hf
    cases hu
  · next hi =>
    rw [mem_selected hp, hf, Option.any_some, Bool.or_eq_true, not_or, Bool.not_eq_true, Bool.not_eq_true] at hi
    exact ⟨hf, hi⟩

/-- Every guarded read of a domain with nothing in flight is declined (R102). -/
theorem unguarded_massDecline (hc : CountsKept s) (hz : (s.dom d).inFlight = 0) :
    Unguarded (massDecline d guardedEntry guardedEntry c s) d := by
  intro i f hf hg hu hd
  obtain ⟨he, hheld, hstalled⟩ := massDecline_unanswered hp d c hf hu
  have hn := inFlight_eq_false hc hz he hd
  rw [Entry.unanswered, hn, Bool.or_false, Entry.inPool, Bool.or_eq_true] at hu
  rcases hu with hs | hs
  · simp [listedIn, hs, hd, guardedEntry, hg] at hheld
  · simp [parkedIn, hs, hd, guardedEntry, hg] at hstalled

theorem massDecline_everyEntry_held (selStalled : Entry → Bool) :
    (massDecline d everyEntry selStalled c s).held (.domain d) = [] := by
  rw [massDecline_held, filter_selectedHeld_same hp, List.filter_eq_nil_iff]
  intro i hi
  obtain ⟨e, he, -⟩ := held_live hp hi
  simp [he, everyEntry]

theorem massDecline_everyEntry_stalled (sel : Entry → Bool) {i : EntryIdx} {f : Entry}
    (hf : (massDecline d sel everyEntry c s).entry i = some f) (hs : f.state = .stalled) : f.domain? ≠ some d := by
  intro hd
  obtain ⟨_, _, hstalled⟩ := massDecline_unanswered hp d c hf (unanswered_of_state (by simp [hs]))
  simp [parkedIn, hs, hd, everyEntry] at hstalled

end MassDecline

/-! ## The commands that decline a domain's traffic -/

section Declining

variable {s : State} (h : WaitLaw s) (hp : PoolKept s) (d : DomainId)
include h

theorem waitLaw_massDecline (sel selStalled : Entry → Bool) (c : DeclineCode) :
    WaitLaw (massDecline d sel selStalled c s) :=
  waitLaw_of_recounts h (lightens_massDecline d sel selStalled c s) (beside_massDecline d sel selStalled c s).recounts

theorem waitLaw_takeFlush : WaitLaw (takeFlush d s) :=
  waitLaw_actionReply (waitLaw_completeDrain (waitLaw_massDecline h d everyEntry everyEntry .flushed) d) d _

/-- A record is set and the domain's list declined, after which the record sleeps over it. -/
theorem waitLaw_massDecline_setDom {y : Domain} {sel selStalled : Entry → Bool} {c : DeclineCode}
    (hd : Sleeps (massDecline d sel selStalled c (s.setDom d y)) d y)
    (hv : (s.dom d).contentsValid = true →
      y.contentsValid = true ∨ Unguarded (massDecline d sel selStalled c (s.setDom d y)) d) :
    WaitLaw (massDecline d sel selStalled c (s.setDom d y)) := by
  have hb := beside_massDecline d sel selStalled c (s.setDom d y)
  have hhere : (massDecline d sel selStalled c (s.setDom d y)).dom d = y :=
    (hb.dom d).trans (State.dom_setDom_same s d y)
  have hset : Lightens s (s.setDom d y) := lightens_of_pool rfl rfl
  refine waitLaw_of_move h (hset.trans (lightens_massDecline ..))
    (fun k hk => (hb.dom k).trans (State.dom_setDom_ne s hk y)) ?_ ?_
  · rwa [hhere]
  · rwa [hhere]

include hp

/-- FAULT is entered over an empty list, and with no STALLED entry (R19, R101). -/
theorem waitLaw_abandonCommand : WaitLaw (abandonCommand d s) := by
  have hp' : PoolKept ((s.setSlot d .empty).setDom d (s.dom d).faulted) := poolKept_of_pool rfl hp
  have key : WaitLaw (massDecline d everyEntry everyEntry .domainFault
      ((s.setSlot d .empty).setDom d (s.dom d).faulted)) :=
    waitLaw_massDecline_setDom (s := s.setSlot d .empty) h d
      ⟨nofun, fun _ => ⟨massDecline_everyEntry_held hp' d _ _, fun _ _ =>
        massDecline_everyEntry_stalled hp' d _ _⟩, nofun⟩ .inl
  exact waitLaw_offer key _

/-- LOW is entered again over an empty list (R18). -/
theorem waitLaw_refusedRaise : WaitLaw (refusedRaise d s) := by
  have hp' : PoolKept (s.setDom d ((s.dom d).reachedLow (s.dom d).contentsValid)) := poolKept_of_pool rfl hp
  have key : WaitLaw (massDecline d everyEntry noEntry .wakeRefused
      (s.setDom d ((s.dom d).reachedLow (s.dom d).contentsValid))) :=
    waitLaw_massDecline_setDom h d (sleeps_of_empty (massDecline_everyEntry_held hp' d _ _) nofun) .inl
  exact waitLaw_loadDeep (waitLaw_offer key _) d

variable (hc : CountsKept s) (hz : (s.dom d).inFlight = 0)
include hc hz

theorem waitLaw_takeAssumption (a : Assumption) (hs : (s.dom d).state = .fault) : WaitLaw (takeAssumption d a s) := by
  obtain ⟨_, hfault, _⟩ := h.sleeps d
  obtain ⟨hempty, -⟩ := hfault hs
  cases a with
  | active => exact waitLaw_enterActive h d
  | lowRetain =>
    have key := waitLaw_setDom h d (y := { s.dom d with state := .low, level := .retain, wakePending := false })
      (sleeps_of_empty hempty nofun) id
    exact waitLaw_loadDeep key d
  | lowOff =>
    refine waitLaw_of_move (d := d) h (lightens_of_pool rfl rfl) (fun k hk => State.dom_setDom_ne s hk _) ?_
      fun _ => .inr ((unguarded_of_fault h hp hc hz hs).lightens (lightens_of_pool rfl rfl))
    simp only [takeAssumption, State.dom_setDom_same]
    exact sleeps_of_empty hempty nofun

end Declining

/-! ## The acknowledges -/

/-- The domain has reached LOW, and its contents are lost at OFF: DONE for LOWER but for what follows it (R5, R13). -/
def reachLow (d : DomainId) (s : State) : State :=
  let u := offer { record s .domainLow with domain := some d, detail := (s.dom d).level.value.setWidth 16 }
    (s.setDom d ((s.dom d).reachedLow (s.dom d).contentsValid))
  if (s.dom d).level = .off then loseContents d u else u

theorem doneLower_eq (d : DomainId) (s : State) :
    doneLower d s = if (s.dom d).wakePending then waking d (reachLow d s) else loadDeep d (reachLow d s) := rfl

theorem lightens_reachLow (d : DomainId) (s : State) : Lightens s (reachLow d s) := by
  have hset : ∀ (u : State) (y : Domain), Lightens u (u.setDom d y) := fun _ _ => lightens_of_pool rfl rfl
  have hlow := (hset s ((s.dom d).reachedLow (s.dom d).contentsValid)).trans (lightens_offer
    { record s .domainLow with domain := some d, detail := (s.dom d).level.value.setWidth 16 } _)
  unfold reachLow
  dsimp only
  split
  · exact (hlow.trans (hset _ _)).trans (lightens_massDecline d guardedEntry guardedEntry .contentLost _)
  · exact hlow

theorem reachLow_dom (d : DomainId) (s : State) :
    ∃ valid, (reachLow d s).dom d = (s.dom d).reachedLow valid := by
  have hlow := (beside_offer { record s .domainLow with domain := some d, detail := (s.dom d).level.value.setWidth 16 }
    (s.setDom d ((s.dom d).reachedLow (s.dom d).contentsValid))).dom d
  rw [State.dom_setDom_same] at hlow
  unfold reachLow
  dsimp only
  split
  · exact ⟨false, ((beside_loseContents_of_dom hlow).dom d).trans (State.dom_setDom_same _ d _)⟩
  · exact ⟨_, hlow⟩

section Acknowledged

variable {s : State} (hp : PoolKept s) (hc : CountsKept s) (d : DomainId)
include hp hc

/-- The contents are lost with no guarded read of them left (R13, R111). -/
theorem reachLow_unguarded (hz : (s.dom d).inFlight = 0) :
    ((reachLow d s).dom d).contentsValid = (s.dom d).contentsValid ∨ Unguarded (reachLow d s) d := by
  unfold reachLow
  generalize hu : offer _ (s.setDom d ((s.dom d).reachedLow (s.dom d).contentsValid)) = u
  have hpool : u.pool = s.pool := by rw [← hu, pool_offer, pool_setDom]
  have hsteady : Undisturbed s u := hu ▸ undisturbed_of_setDom (undisturbed_offer _ _) rfl
  have hdom : u.dom d = (s.dom d).reachedLow (s.dom d).contentsValid := by
    rw [← hu, (beside_offer _ _).dom, State.dom_setDom_same]
  dsimp only
  split
  · have hlost : Undisturbed u (u.setDom d { u.dom d with contentsValid := false }) := undisturbed_setDom rfl
    have hpool' := poolKept_of_pool ((pool_setDom d u { u.dom d with contentsValid := false }).trans hpool) hp
    have hcounts := countsKept_of_steady ((hsteady.trans hlost).steady (parked_of_poolKept hp)) hc
    refine .inr (unguarded_massDecline hpool' d .contentLost hcounts ?_)
    rw [State.dom_setDom_same, hdom]
    exact hz
  · exact .inl (by rw [hdom]; rfl)

variable (h : WaitLaw s)
include h

/-- What follows the reaching of LOW: a record that the list allows. -/
theorem waitLaw_of_reachLow (hz : (s.dom d).inFlight = 0) {t : State} (hl : Lightens (reachLow d s) t)
    (helse : ∀ k, k ≠ d → t.dom k = s.dom k) (hd : Sleeps t d (t.dom d))
    (hvalid : (t.dom d).contentsValid = ((reachLow d s).dom d).contentsValid) : WaitLaw t := by
  refine waitLaw_of_move h ((lightens_reachLow d s).trans hl) helse hd fun hv => ?_
  rw [hvalid]
  exact (reachLow_unguarded hp hc d hz).imp (fun hsame => hsame.trans hv) fun hnone => hnone.lightens hl

/-- DONE for LOWER: LOW over an empty list or an outstanding wake, or EXITING where the domain has been called (R13). -/
theorem waitLaw_doneLower (hs : (s.dom d).state = .entering) (hz : (s.dom d).inFlight = 0)
    (helse : ∀ k, k ≠ d → (doneLower d s).dom k = s.dom k) : WaitLaw (doneLower d s) := by
  obtain ⟨valid, hdom⟩ := reachLow_dom d s
  rw [doneLower_eq] at helse ⊢
  split at helse
  · next hw =>
    rw [if_pos hw]
    have hhere : ((waking d (reachLow d s)).dom d) = ((reachLow d s).dom d).woken (reachLow d s).timebase :=
      State.dom_setDom_same _ d _
    have hl : ∀ u : State, Lightens u (waking d u) := fun _ => lightens_of_pool rfl rfl
    refine waitLaw_of_reachLow hp hc d h hz (hl _) helse ?_ (by rw [hhere]; rfl)
    exact sleeps_awake (.inr (.inr (by rw [hhere]; rfl)))
  · next hw =>
    rw [if_neg hw]
    have hhere : ((loadDeep d (reachLow d s)).dom d) =
        ((reachLow d s).dom d).deepened (reachLow d s).mode (reachLow d s).timebase := State.dom_setDom_same _ d _
    have hl : ∀ u : State, Lightens u (loadDeep d u) := fun _ => lightens_of_pool rfl rfl
    refine waitLaw_of_reachLow hp hc d h hz (hl _) helse ?_ (by rw [hhere]; rfl)
    refine ((h.sleeps d).lightens ((lightens_reachLow d s).trans (hl _))).low_of_entering hs (Bool.not_eq_true _ ▸ hw) ?_
    rw [hhere, hdom]
    rfl

/-- An acknowledge is delivered from a TAKEN slot (R118). -/
theorem waitLaw_deliver (hslots : SlotsKept s) (hquiet : QuietKept s) {k : PowerCommand} (hk : s.slot d = .taken k)
    (o : AckOutcome) : WaitLaw (deliver o k d (s.setSlot d .empty)) := by
  have hempty : WaitLaw (s.setSlot d .empty) := h
  have hpool : PoolKept (s.setSlot d .empty) := poolKept_of_pool rfl hp
  cases k with
  | raise =>
    cases o with
    | done => exact waitLaw_offer (waitLaw_enterActive hempty d) _
    | refused => exact waitLaw_refusedRaise hempty hpool d
  | lower l =>
    cases o with
    | refused => exact waitLaw_offer (waitLaw_enterActive hempty d) _
    | done =>
      have hs : (s.dom d).state = .entering := by
        have hagrees := hslots d
        rw [hk] at hagrees
        cases hs : (s.dom d).state <;> simp_all [slotAgrees, Slot.holds]
      refine waitLaw_doneLower (s := s.setSlot d .empty) hpool hc d hempty hs ?_ fun c hcd =>
        ((touches_doneLower hk).elsewhere c hcd).1
      have hzero := hquiet d
      rw [hs] at hzero
      simpa using hzero

end Acknowledged

end Sys2Proof.Machine
end

section
/-! An entry that decode or a re-examination has decided keeps the laws of the traffic that waits (R7, R38, R44, R46, R51, R97,
R108, R110, R111). -/

namespace Sys2Proof.Machine

-- One proof after another: the memory of a compile grows with the proofs that run at once.
set_option Elab.async false

open Sys2Proof.Claims Sys2Proof.Proofs

/-! ## One entry decided -/

/-- The entry at the index has become `f`, which may have joined the list it captured; no other entry has changed, and every
wake notice is still outstanding. -/
structure Joins (i : EntryIdx) (f : Entry) (s t : State) : Prop where
  entry : ∀ j, t.entry j = if j = i then some f else s.entry j
  held : ∀ l, t.held l = s.held l ∨ (f.state = .held ∧ f.list = some l)
  wakes : ∀ d, s.wakeOutstanding d = true → t.wakeOutstanding d = true
  dom : ∀ d, ∃ k, t.dom d = { s.dom d with inFlight := k }

/-- What the laws ask of the entry that has been decided: it passes over an empty list, waits for no faulted domain, has woken
the sleeping domain it waits for, joins a list that nothing passes, and reads valid contents if it is guarded. -/
structure Admitted (i : EntryIdx) (f : Entry) (s t : State) : Prop where
  passing : f.state = .passing → ∀ l, f.list = some l → s.held l = []
  parked : f.inPool = true → ∀ d, f.domain? = some d → (s.dom d).state ≠ .fault
  woken : f.state = .held → ∀ d, f.domain? = some d →
    (s.dom d).state = .low ∨ (s.dom d).state = .entering → t.wakeOutstanding d = true
  alone : f.state = .held → ∀ j, j ≠ i → ∀ e, s.entry j = some e → e.state ≠ .passing
  guarded : f.guarded = true → f.unanswered = true → ∀ d, f.domain? = some d → (s.dom d).contentsValid = true

section Deciding

variable {i : EntryIdx} {f : Entry} {s t : State} (h : WaitLaw s) (hj : Joins i f s t) (ha : Admitted i f s t)
include h hj ha

theorem sleeps_of_joins (d : DomainId) : Sleeps t d (s.dom d) := by
  obtain ⟨hlow, hfault, hentering⟩ := h.sleeps d
  have hjoined : ∀ {x : Prop}, (t.held (.domain d) = s.held (.domain d) → x) →
      (f.state = .held → f.domain? = some d → x) → x := fun hsame hlist =>
    (hj.held (.domain d)).elim hsame fun ⟨hs, hl⟩ => hlist hs (domain?_eq_some_iff.mpr hl)
  refine ⟨fun hs => ?_, fun hs => ⟨?_, fun j e he hst => ?_⟩, fun hs => ?_⟩
  · refine hjoined (fun hsame => ?_) fun hheld hd => .inr (ha.woken hheld d hd (.inl hs))
    rw [hsame]
    exact (hlow hs).imp_right (hj.wakes d)
  · refine hjoined (fun hsame => hsame.trans (hfault hs).1) fun hheld hd => ?_
    exact absurd hs (ha.parked (by simp [Entry.inPool, hheld]) d hd)
  · rcases replaced_cases hj.entry he with ⟨-, hf⟩ | ⟨-, hold⟩
    · obtain rfl := Option.some.inj hf
      exact fun hd => ha.parked (by simp [Entry.inPool, hst]) d hd hs
    · exact (hfault hs).2 j e hold hst
  · refine hjoined (fun hsame => ?_) fun hheld hd => .inr (.inr (ha.woken hheld d hd (.inr hs)))
    rw [hsame]
    exact (hentering hs).imp_right (Or.imp_right (hj.wakes d))

theorem passAloneKept_of_joins : PassAloneKept t := by
  obtain ⟨_, hpass, _⟩ := h
  intro j e he hs l hl
  rcases replaced_cases hj.entry he with ⟨-, hf⟩ | ⟨hne, hold⟩
  · obtain rfl := Option.some.inj hf
    exact ((hj.held l).resolve_right fun hheld => by simp [hs] at hheld).trans (ha.passing hs l hl)
  · refine ((hj.held l).resolve_right fun hheld => ?_).trans (hpass j e hold hs l hl)
    exact ha.alone hheld.1 j hne e hold hs

theorem guardKept_of_joins : GuardKept t := by
  obtain ⟨_, _, hguard⟩ := h
  intro j e he hg hu d hd
  obtain ⟨k, hk⟩ := hj.dom d
  rw [hk]
  rcases replaced_cases hj.entry he with ⟨-, hf⟩ | ⟨-, hold⟩
  · obtain rfl := Option.some.inj hf
    exact ha.guarded hg hu d hd
  · exact hguard j e hold hg hu d hd

theorem waitLaw_of_joins : WaitLaw t := by
  refine ⟨fun d => ?_, passAloneKept_of_joins h hj ha, guardKept_of_joins h hj ha⟩
  obtain ⟨k, hk⟩ := hj.dom d
  rw [hk]
  exact (sleeps_of_joins h hj ha d).congr rfl id

end Deciding

theorem joins_of_puts {i : EntryIdx} {f : Entry} {s t : State} (h : Puts i (some f) s t) (hn : t.notices = s.notices)
    (hr : Recounts s t) : Joins i f s t :=
  ⟨h.entry, fun l => .inl (held_of_pool h.rest l), fun d hw => by rwa [State.wakeOutstanding, hn], hr.dom⟩

/-! ## Notices -/

theorem wakeOutstanding_giveNotice {s : State} (e : Entry) (wake : Bool) {d : DomainId}
    (h : s.wakeOutstanding d = true) : (giveNotice e wake s).wakeOutstanding d = true := by
  rw [giveNotice_eq, State.wakeOutstanding, List.any_append, Bool.or_eq_true]
  exact .inl h

/-- A hold with reason WAKE leaves a wake notice outstanding (R7, R48). -/
theorem wakeOutstanding_of_wake (s : State) {e : Entry} {d : DomainId} (hd : e.domain? = some d) :
    (giveNotice e true s).wakeOutstanding d = true := by
  simp [giveNotice_eq, State.wakeOutstanding, hd]

theorem giveNotice_entry (e : Entry) (wake : Bool) (s : State) (j : EntryIdx) :
    (giveNotice e wake s).entry j = s.entry j :=
  congrArg (fun p : Pool => p.table[j]) (pool_giveNotice e wake s)

theorem giveNotice_held (e : Entry) (wake : Bool) (s : State) (l : ListId) :
    (giveNotice e wake s).held l = s.held l :=
  held_of_pool ((pool_giveNotice e wake s).trans rfl) l

theorem Joins.giveNotice {i : EntryIdx} {f : Entry} {s t : State} (h : Joins i f s t) (e : Entry) (wake : Bool) :
    Joins i f s (giveNotice e wake t) :=
  ⟨fun j => (giveNotice_entry e wake t j).trans (h.entry j), fun l => by rw [giveNotice_held]; exact h.held l,
    fun d hw => wakeOutstanding_giveNotice e wake (h.wakes d hw), fun d => by
      rw [(beside_giveNotice e wake t).dom]; exact h.dom d⟩

theorem Admitted.giveNotice {i : EntryIdx} {f : Entry} {s t : State} (h : Admitted i f s t) (e : Entry) (wake : Bool) :
    Admitted i f s (giveNotice e wake t) :=
  ⟨h.passing, h.parked, fun hs d hd hx => wakeOutstanding_giveNotice e wake (h.woken hs d hd hx), h.alone, h.guarded⟩

/-! ## The decision -/

/-- What a decision says of the list it was made for: it passes over an empty list, and holds for a domain that is not in
FAULT, with reason WAKE for one that sleeps (R44, R46). -/
structure Judged (s : State) (list : Option ListId) (x : Decision) : Prop where
  pass : x = .pass → ∀ l, list = some l → s.held l = []
  hold : ∀ r, x = .hold r → ∀ d, list = some (.domain d) →
    (s.dom d).state ≠ .fault ∧ ((s.dom d).state = .low ∨ (s.dom d).state = .entering → r = .wake)

theorem judged_decline (s : State) (list : Option ListId) (c : DeclineCode) : Judged s list (.decline c) :=
  ⟨nofun, nofun⟩

theorem held_nil_of_clear {s : State} {l : ListId} {n : InitiatorId} {own : Nat}
    (h : orderDecision (s.clear l n own) = .pass) : s.held l = [] := by
  unfold orderDecision at h
  split at h
  · next hc => exact ((clear_iff ..).mp hc).1
  · cases h

theorem judged_openStep (s : State) (n : InitiatorId) (own : Nat) : Judged s (some .openPath) (openStep s n own) :=
  ⟨fun h _ hl => Option.some.inj hl ▸ held_nil_of_clear h, nofun⟩

theorem judged_domainStep (s : State) (d : DomainId) (permitted : Bool) (n : InitiatorId) (own : Nat) :
    Judged s (some (.domain d)) (domainStep s d permitted n own) := by
  have hsame : ∀ {k : DomainId}, some (ListId.domain d) = some (.domain k) → k = d := by simp [eq_comm]
  have hup : (s.dom d).state = .active ∨ (s.dom d).state = .draining →
      Judged s (some (.domain d)) (orderDecision (s.clear (.domain d) n own)) := fun hs =>
    ⟨fun h _ hl => Option.some.inj hl ▸ held_nil_of_clear h, fun r h k hk => by
      rw [hsame hk]; rcases hs with hs | hs <;> simp [hs]⟩
  have hwake : (s.dom d).state ≠ .fault → Judged s (some (.domain d)) (.hold .wake) := fun hs =>
    ⟨nofun, fun r h k hk => hsame hk ▸ ⟨hs, fun _ => (Decision.hold.inj h).symm⟩⟩
  unfold domainStep
  dsimp only
  split
  case h_1 hs => exact hup (.inl hs)
  case h_2 hs =>
    split
    · exact judged_decline ..
    · exact hup (.inr hs)
  case h_3 hs =>
    split
    · exact hwake (by simp [hs])
    · exact judged_decline ..
  case h_4 hs =>
    split
    · exact hwake (by simp [hs])
    · exact judged_decline ..
  case h_5 hs => exact hwake (by simp [hs])
  case h_6 => exact judged_decline ..

/-- A decode is judged for the list it captures, and guards a read of valid contents alone (R43). -/
structure Sound (s : State) (x : Decoded) : Prop where
  judged : Judged s x.list x.decision
  guarded : x.guarded = true → ∀ d, x.list = some (.domain d) → (s.dom d).contentsValid = true

theorem sound_declinedAs (s : State) (window : Option WindowId) (list : Option ListId) (report : Bool)
    (c : DeclineCode) : Sound s (declinedAs window list report c) :=
  ⟨judged_decline .., nofun⟩

theorem sound_decodeThrough (s : State) (r : Request) (w : WindowId) : Sound s (decodeThrough s r w) := by
  unfold decodeThrough
  dsimp only
  split
  · exact ⟨judged_openStep .., nofun⟩
  · split
    · exact sound_declinedAs ..
    · next hvalid =>
      refine ⟨judged_domainStep .., fun hg d hd => ?_⟩
      obtain rfl : (s.win w).domain = d := by simpa using hd
      simp only [Bool.and_eq_true, beq_iff_eq] at hg
      exact Bool.not_eq_false _ ▸ fun hx => hvalid ⟨hg.1, hg.2, hx⟩

theorem sound_decodeGoverning (s : State) (r : Request) : Sound s (decodeGoverning s r) := by
  unfold decodeGoverning
  split
  · exact sound_declinedAs ..
  split
  · exact sound_declinedAs ..
  split
  · exact ⟨judged_openStep .., nofun⟩
  · split
    · exact sound_decodeThrough ..
    · exact sound_declinedAs ..

/-- In TRANSPARENT mode nothing is held (R165). -/
theorem held_nil_of_transparent {s : State} (hp : PoolKept s) (ht : TransparentKept s) (hm : s.mode = .transparent)
    (l : ListId) : s.held l = [] := by
  obtain ⟨-, hbudget, -⟩ := ht hm
  rw [List.eq_nil_iff_forall_not_mem]
  intro i hi
  obtain ⟨e, he, hs, -⟩ := held_live hp hi
  have hpos := (place_taken hp he (by simp [Entry.inPool, hs])).1
  omega

theorem sound_decodeRequest {s : State} (hp : PoolKept s) (ht : TransparentKept s) (r : Request) :
    Sound s (decodeRequest s r) := by
  unfold decodeRequest
  split
  · exact sound_decodeGoverning s r
  · next hm =>
    unfold decodeTransparent
    split
    · exact sound_declinedAs ..
    · exact ⟨⟨fun _ l _ => held_nil_of_transparent hp ht hm l, nofun⟩, nofun⟩

theorem judged_reExamined (s : State) {e : Entry} (hl : e.list.isSome = true) : Judged s e.list (reExamined s e) := by
  unfold reExamined
  split
  · next d hd => exact hd ▸ judged_domainStep ..
  · next hother =>
    obtain ⟨l, hl⟩ := Option.isSome_iff_exists.mp hl
    cases l with
    | domain d => exact absurd hl (hother d)
    | openPath => exact hl ▸ judged_openStep ..

/-! ## Passing, holding and declining -/

/-- Giving a place to an initiator and giving a notice do not read each other. -/
theorem waitLaw_takePlace {s : State} {e : Entry} {wake : Bool} (h : WaitLaw (giveNotice e wake s)) (n : InitiatorId) :
    WaitLaw (giveNotice e wake (takePlace n s)) := by
  rw [giveNotice_eq] at h ⊢
  exact h

section Placing

variable {s : State} {i : EntryIdx} {e : Entry} (h : WaitLaw s)
include h

theorem waitLaw_giveNotice (e : Entry) (wake : Bool) : WaitLaw (giveNotice e wake s) := by
  have hb := beside_giveNotice e wake s
  obtain ⟨hhold, hpass, hguard⟩ := h
  refine ⟨fun d => ?_, fun j f hf hs l hl => ?_, fun j f hf hg hu d hd => ?_⟩
  · obtain ⟨hlow, hfault, hentering⟩ := hhold d
    rw [hb.dom, giveNotice_held]
    refine ⟨fun hs => (hlow hs).imp_right (wakeOutstanding_giveNotice e wake), fun hs => ?_, fun hs =>
      (hentering hs).imp_right (Or.imp_right (wakeOutstanding_giveNotice e wake))⟩
    simpa only [giveNotice_entry] using hfault hs
  · rw [giveNotice_held]
    exact hpass j f (giveNotice_entry e wake s j ▸ hf) hs l hl
  · rw [hb.dom]
    exact hguard j f (giveNotice_entry e wake s j ▸ hf) hg hu d hd

/-- A decline of an entry that has no place of the pool yet (R38, R67). -/
theorem waitLaw_decline_new (c : DeclineCode) : WaitLaw (decline i c (s.setEntry i (some e))) := by
  have hn : (decline i c (s.setEntry i (some e))).notices = s.notices := by
    obtain ⟨_, _, hframe⟩ := decline_frame i c (s.setEntry i (some e))
    rw [hframe]
    rfl
  have hr := ((beside_setEntry i (some e) s).trans (beside_decline i c _)).recounts
  exact waitLaw_of_joins h (joins_of_puts (puts_decline_new i e c s) hn hr) ⟨nofun, nofun, nofun, nofun, nofun⟩

variable {x : Decision} (hx : Judged s e.list x)
  (hg : e.guarded = true → ∀ d, e.domain? = some d → (s.dom d).contentsValid = true)
include hx hg

theorem waitLaw_passEntry (hpass : x = .pass) : WaitLaw (passEntry i e s) := by
  have hn : (passEntry i e s).notices = s.notices := by
    obtain ⟨_, _, hframe⟩ := passEntry_frame i e s
    rw [hframe]
  obtain ⟨hentry, hrest⟩ := puts_passEntry i e s
  have hj : Joins i (Entry.countedIn { e with state := .passing }) s (passEntry i e s) :=
    ⟨hentry, fun l => .inl ((held_of_pool hrest l).trans (by cases l <;> rfl)), fun d hw => by
      rwa [State.wakeOutstanding, hn], (recounts_passEntry i e s).dom⟩
  exact waitLaw_of_joins h hj ⟨fun _ => hx.pass hpass, nofun, nofun, nofun, fun hgu _ => hg hgu⟩

/-- The entry joins its list, and its notice is given (R7, R81). -/
theorem waitLaw_joinList {r : HoldReason} (hhold : x = .hold r) {l : ListId} (hl : e.list = some l)
    (halone : ∀ j, j ≠ i → ∀ f, s.entry j = some f → f.state ≠ .passing) :
    WaitLaw (giveNotice e (r == .wake) (joinList i e r s)) := by
  obtain ⟨hentry, hrest⟩ := puts_joinList r s hl
  have hj : Joins i { e with state := .held, reason := some r } s (joinList i e r s) := by
    refine ⟨fun j => (hentry j).trans (by rw [State.setHeld_entry]), fun k => ?_, fun d hw => ?_, fun d =>
      ⟨(s.dom d).inFlight, (beside_joinList i e r s).dom d⟩⟩
    · rw [held_of_pool hrest k]
      by_cases hk : k = l
      · exact .inr ⟨rfl, hk ▸ hl⟩
      · exact .inl (State.held_setHeld_ne s hk _)
    · obtain ⟨_, _, _, hframe⟩ := joinList_frame i e r s
      rw [hframe]
      exact hw
  refine waitLaw_of_joins h (hj.giveNotice e (r == .wake)) ⟨nofun, fun _ d hd => ?_, fun _ d hd hs => ?_, fun _ => halone,
    fun hgu _ => hg hgu⟩
  · exact (hx.hold r hhold d (domain?_eq_some_iff.mp hd)).1
  · rw [(hx.hold r hhold d (domain?_eq_some_iff.mp hd)).2 hs]
    exact wakeOutstanding_of_wake _ hd

/-- The entry takes the stall slot (R94). -/
theorem waitLaw_stallEntry {r : HoldReason} (hhold : x = .hold r) : WaitLaw (stallEntry i e s) := by
  rw [stallEntry_eq]
  refine waitLaw_of_joins (i := i) (f := { e with state := .stalled }) h
    ⟨fun j => State.entry_setEntry s j i _, fun l => .inl (by cases l <;> rfl), fun _ hw => hw, fun d =>
      ⟨(s.dom d).inFlight, rfl⟩⟩ ⟨nofun, fun _ d hd => ?_, nofun, nofun, fun hgu _ => hg hgu⟩
  exact (hx.hold r hhold d (domain?_eq_some_iff.mp hd)).1

variable (halone : ∀ j, j ≠ i → ∀ f, s.entry j = some f → f.state ≠ .passing)
include halone

theorem waitLaw_holdNew {r : HoldReason} (hhold : x = .hold r) {l : ListId} (hl : e.list = some l) :
    WaitLaw (holdNew i e r s) := by
  unfold holdNew
  split
  · exact waitLaw_takePlace (waitLaw_joinList h hx hg hhold hl halone) _
  · split
    · exact waitLaw_decline_new h .poolFull
    · exact waitLaw_stallEntry h hx hg hhold

theorem waitLaw_placeNew (hl : ∀ r, x = .hold r → e.list.isSome = true) : WaitLaw (placeNew i e x s) := by
  unfold placeNew
  split
  · have key := waitLaw_passEntry (i := i) h hx hg rfl
    dsimp only
    split
    · exact waitLaw_giveNotice key e false
    · exact key
  · obtain ⟨l, hl⟩ := Option.isSome_iff_exists.mp (hl _ rfl)
    exact waitLaw_holdNew h hx hg halone rfl hl
  · exact waitLaw_decline_new h _

end Placing

end Sys2Proof.Machine
end

section
/-! The commands of the request link keep the laws of the traffic that waits (R38, R56, R63, R65 to R67, R73, R91, R92,
R97, R101, R108, R110, R111). -/

namespace Sys2Proof.Machine

-- One proof after another: the memory of a compile grows with the proofs that run at once.
set_option Elab.async false

open Sys2Proof.Claims Sys2Proof.Proofs

/-! ## Acceptance and re-examination -/

theorem Judged.congr {s t : State} {list : Option ListId} {x : Decision} (h : Judged s list x)
    (hheld : ∀ l, t.held l = s.held l) (hdom : ∀ d, t.dom d = s.dom d) : Judged t list x :=
  ⟨fun hx l hl => (hheld l).trans (h.pass hx l hl), fun r hx d hd => by
    rw [hdom]
    exact h.hold r hx d hd⟩

/-- While the decode stage is empty no entry is PASSING (R60). -/
theorem not_passing_of_stage {s : State} (hp : PoolKept s) (hs : s.stage = none) {i : EntryIdx} {e : Entry}
    (he : s.entry i = some e) : e.state ≠ .passing := fun hx => by
  obtain ⟨_, _, ⟨_, _, hpass, _⟩, _⟩ := hp
  cases hs.symm.trans ((hpass i).mpr (hx ▸ entryIn_of_entry he))

/-- While an entry is STALLED no other is PASSING: each would be the younger (R60, R94). -/
theorem not_passing_beside_stalled {s : State} (hp : PoolKept s) {i j : EntryIdx} {e f : Entry}
    (he : s.entry i = some e) (hs : e.state = .stalled) (hne : j ≠ i) (hf : s.entry j = some f) :
    f.state ≠ .passing := fun hx => by
  obtain ⟨_, _, ⟨_, _, _, hyoung⟩, _⟩ := hp
  have hfe := hyoung i j hne.symm e he (.inl hs) f hf
  have hef := hyoung j i hne f hf (.inr hx) e he
  omega

/-- Acceptance gives out a place in the order, takes the steering word, and places the new entry (R56, R59, R131). -/
theorem acceptAt_steered (i : EntryIdx) (r : Request) (s : State) :
    ∃ claims events, acceptAt i r s =
      placeNew i (newEntry s r (decodeRequest s r)) (decodeRequest s r).decision
        { s with nextOrder := s.nextOrder + 1, claims := claims, events := events } := by
  unfold acceptAt
  dsimp only
  cases (decodeRequest s r).word with
  | none => exact ⟨s.claims, s.events, rfl⟩
  | some w =>
    obtain ⟨claims, events, hframe⟩ := takeSteeringWord_frame w r { s with nextOrder := s.nextOrder + 1 }
    exact ⟨claims, events, congrArg (placeNew i _ _) hframe⟩

section Deciding

variable {s : State} {i : EntryIdx} (h : WaitLaw s) (hp : PoolKept s)
include h hp

theorem waitLaw_acceptAt (ht : TransparentKept s) (r : Request) (hstage : s.stage = none) :
    WaitLaw (acceptAt i r s) := by
  obtain ⟨_, _, heq⟩ := acceptAt_steered i r s
  obtain ⟨hjudged, hguarded⟩ := sound_decodeRequest hp ht r
  rw [heq]
  refine waitLaw_placeNew ?_ (hjudged.congr (fun _ => rfl) fun _ => rfl) ?_ ?_ fun _ => decodeRequest_listed
  · exact h
  · exact fun hg d hd => hguarded hg d (domain?_eq_some_iff.mp hd)
  · exact fun j _ f hf => not_passing_of_stage hp hstage hf

theorem waitLaw_reExamine {e : Entry} (he : s.entry i = some e) (hs : e.state = .stalled) :
    WaitLaw (reExamine i e s) := by
  obtain ⟨_, _, hguard⟩ := id h
  obtain ⟨_, _, ⟨_, hlisted, _⟩, _⟩ := id hp
  obtain ⟨l, hl⟩ := Option.isSome_iff_exists.mp (hlisted i e he hs)
  have hjudged := judged_reExamined s (hlisted i e he hs)
  have hvalid : e.guarded = true → ∀ d, e.domain? = some d → (s.dom d).contentsValid = true := fun hg =>
    hguard i e he hg (unanswered_of_state (by simp [hs]))
  unfold reExamine
  split
  · next hx =>
    have key : WaitLaw (passEntry i e (givePlace e.initiator (leaveStall s))) :=
      waitLaw_passEntry h (hjudged.congr (fun l => by cases l <;> rfl) fun _ => rfl) hvalid hx
    exact waitLaw_giveNotice key e false
  · next r hx =>
    split
    · exact waitLaw_joinList (s := leaveStall s) h (hjudged.congr (fun l => by cases l <;> rfl) fun _ => rfl) hvalid hx hl
        fun j hne f hf => not_passing_beside_stalled hp he hs hne hf
    · exact h
  · exact waitLaw_of_recounts h (lightens_declineStalled _ s i) (beside_declineStalled _ s i).recounts

end Deciding

/-! ## Issue and return -/

section Link

variable {s t u : State} {i : EntryIdx} {e : Entry} (h : WaitLaw s)
include h

theorem waitLaw_issuePassing (he : s.entry i = some e) (hs : e.state = .passing) : WaitLaw (issuePassing i e s) :=
  waitLaw_of_recounts h
    ((lightens_issueEntry he (by simp [hs])).trans ⟨fun l => by cases l <;> exact List.Subset.refl _,
      fun _ f hf => ⟨f, hf, .refl f⟩, rfl⟩)
    (recounts_issuePassing i e s)

theorem waitLaw_issueHeld (he : s.entry i = some e) (hs : e.state = .held) : WaitLaw (issueHeld i e s) :=
  waitLaw_of_recounts h (lightens_issueHeld he (by simp [hs])) (recounts_issueHeld i e s)

theorem waitLaw_freeEntry (i : EntryIdx) : WaitLaw (freeEntry i s) :=
  waitLaw_of_recounts h (lightens_freeEntry i s) (recounts_freeEntry i s)

theorem waitLaw_matchResponse (r : MemResponse) : WaitLaw (matchResponse r s) := by
  unfold matchResponse
  split
  · split
    · exact h
    split
    · exact waitLaw_freeEntry h _
    · exact waitLaw_offer h _
  · exact waitLaw_offer h _

theorem waitLaw_declineHeld (c : DeclineCode) (i : EntryIdx) : WaitLaw (declineHeld c s i) :=
  waitLaw_of_recounts h (lightens_declineHeld c s i) (beside_declineHeld c s i).recounts

theorem waitLaw_declineStalled (c : DeclineCode) (i : EntryIdx) : WaitLaw (declineStalled c s i) :=
  waitLaw_of_recounts h (lightens_declineStalled c s i) (beside_declineStalled c s i).recounts

theorem waitLaw_prompt : WaitLaw (prompt s) :=
  waitLaw_of_recounts h (lightens_prompt s) (beside_prompt s).recounts

theorem waitLaw_resetPort : WaitLaw (resetPort s) :=
  waitLaw_of_recounts h (lightens_resetPort s) (recounts_resetPort s)

/-! ## The rows of the link -/

theorem waitLaw_ite {p : Prop} [Decidable p] (hu : p → WaitLaw u) : WaitLaw (if p then u else s) := by
  split
  · exact hu ‹_›
  · exact h

theorem waitLaw_whileRunning (hu : WaitLaw u) (ht : whileRunning s u = .next t) : WaitLaw t := by
  obtain rfl := Host.Outcome.next.inj ht
  split
  · exact h
  · exact hu

theorem waitLaw_execForwarding (ht : execForwarding s = .next t) : WaitLaw t := by
  refine waitLaw_whileRunning h (waitLaw_ite h fun _ => ?_) ht
  split
  · split
    · exact waitLaw_freeEntry h _
    · exact h
  · exact h

theorem waitLaw_execDeclineSend (ht : execDeclineSend s = .next t) : WaitLaw t := by
  refine waitLaw_whileRunning h (waitLaw_ite h fun _ => ?_) ht
  split
  · split
    · split
      · exact waitLaw_freeEntry h _
      · exact h
    · exact h
  · exact h

theorem waitLaw_execHoldDeadlineExpiry (ht : execHoldDeadlineExpiry i s = .next t) : WaitLaw t := by
  refine waitLaw_whileRunning h ?_ ht
  split
  · exact waitLaw_ite h fun _ => waitLaw_prompt (waitLaw_declineHeld h _ _)
  · exact h

theorem waitLaw_execStallDeadlineExpiry (ht : execStallDeadlineExpiry s = .next t) : WaitLaw t := by
  refine waitLaw_whileRunning h ?_ ht
  split
  · split
    · exact waitLaw_ite h fun _ => waitLaw_declineStalled h _ _
    · exact h
  · exact h

theorem waitLaw_execDownstreamResponse {r : MemResponse} (ht : execDownstreamResponse r s = .next t) : WaitLaw t := by
  refine waitLaw_whileRunning h ?_ ht
  split
  · exact h
  · exact waitLaw_matchResponse h r

theorem waitLaw_execPortReset (ht : execPortReset s = .next t) : WaitLaw t := by
  obtain rfl := Host.Outcome.next.inj ht
  split
  · exact h
  split
  · exact h
  · exact waitLaw_resetPort h

variable (hp : PoolKept s)
include hp

theorem waitLaw_execAcceptance (hm : TransparentKept s) {r : Request} (ht : execAcceptance r s = .next t) :
    WaitLaw t := by
  refine waitLaw_whileRunning h (waitLaw_ite h fun ha => ?_) ht
  simp only [State.accepting, Bool.and_eq_true, Option.isNone_iff_eq_none] at ha
  obtain ⟨⟨⟨-, hstage⟩, -⟩, -⟩ := ha
  split
  · exact waitLaw_acceptAt h hp hm r hstage
  · exact h

theorem waitLaw_execReExamination (ht : execReExamination s = .next t) : WaitLaw t := by
  refine waitLaw_whileRunning h ?_ ht
  split
  · next i hi =>
    split
    · next e he =>
      obtain ⟨f, hf, hs⟩ := stalled_live hp hi
      obtain rfl := Option.some.inj (he.symm.trans hf)
      exact waitLaw_ite h fun _ => waitLaw_reExamine h hp he hs
    · exact h
  · exact h

theorem waitLaw_execIssue (ht : execIssue s = .next t) : WaitLaw t := by
  refine waitLaw_whileRunning h ?_ ht
  split
  · next i hi =>
    split
    · next e he =>
      split
      · next hstage =>
        obtain ⟨_, _, ⟨_, _, hpass, _⟩, _⟩ := id hp
        obtain ⟨f, hf, hs⟩ := state_of_entryIn ((hpass i).mp hstage)
        obtain rfl := Option.some.inj (he.symm.trans hf)
        exact waitLaw_issuePassing h he hs
      · next hstage =>
        obtain ⟨l, hl, -⟩ := releaseCandidate_mem ((issueChoice_cases hi).resolve_left hstage)
        obtain ⟨f, hf, hs, -⟩ := held_live hp hl
        obtain rfl := Option.some.inj (he.symm.trans hf)
        exact waitLaw_issueHeld h he hs
    · exact h
  · exact h

end Link

end Sys2Proof.Machine
end

section
/-! Every command keeps the laws of the traffic that waits (R101, R108, R110, R111). -/

namespace Sys2Proof.Machine

-- One proof after another: the memory of a compile grows with the proofs that run at once.
set_option Elab.async false

open Sys2Proof.Claims Sys2Proof.Proofs

/-! ## Arrival notices -/

/-- Taking away the first of some kind leaves a test as it is that the first does not meet. -/
theorem any_eraseP_of_find {α : Type} {l : List α} {p q : α → Bool} {n : α} (hn : l.find? p = some n)
    (hq : q n = false) : (l.eraseP p).any q = l.any q := by
  obtain ⟨hp, as, bs, rfl, has⟩ := List.find?_eq_some_iff_append.mp hn
  rw [List.eraseP_append_right _ (by simpa using has), List.eraseP_cons_of_pos hp, List.any_append, List.any_append,
    List.any_cons, hq, Bool.false_or]

section Notices

variable {s : State} {d : DomainId} {n : Notice} (hn : s.notices.find? (fun n => n.domain == d) = some n)
include hn

theorem wakeOutstanding_withoutNotice_ne {c : DomainId} (hc : c ≠ d) :
    (withoutNotice s d).wakeOutstanding c = s.wakeOutstanding c := by
  have hd : n.domain = d := by simpa using List.find?_some hn
  exact any_eraseP_of_find hn (by simp [hd, hc.symm])

theorem wakeOutstanding_withoutNotice_arrival (hw : n.wake = false) :
    (withoutNotice s d).wakeOutstanding d = s.wakeOutstanding d :=
  any_eraseP_of_find hn (by simp [hw])

/-- The laws survive the loss of a notice if its domain sleeps without it. -/
theorem waitLaw_withoutNotice (h : WaitLaw s) (hd : Sleeps (withoutNotice s d) d (s.dom d)) :
    WaitLaw (withoutNotice s d) := by
  refine ⟨fun c => ?_, h.2⟩
  by_cases hc : c = d
  · exact hc ▸ hd
  · have hother := h.sleeps c
    rw [Sleeps, ← wakeOutstanding_withoutNotice_ne hn hc] at hother
    exact hother

theorem waitLaw_withoutNotice_arrival (h : WaitLaw s) (hw : n.wake = false) : WaitLaw (withoutNotice s d) := by
  refine waitLaw_withoutNotice hn h ?_
  have hown := h.sleeps d
  rw [Sleeps, ← wakeOutstanding_withoutNotice_arrival hn hw] at hown
  exact hown

/-- A notice that is taken has its wake kept by wake-pending or answered by RAISE (R7, R12). -/
theorem waitLaw_takeNotice (h : WaitLaw s) : WaitLaw (actOnNotice n (withoutNotice s d)) := by
  cases hw : n.wake with
  | false => exact waitLaw_actOnNotice (waitLaw_withoutNotice_arrival hn h hw) n
  | true =>
    have hd : n.domain = d := by simpa using List.find?_some hn
    obtain ⟨_, hfault, _⟩ := h.sleeps d
    cases hs : (s.dom d).state
    case entering =>
      have hact : actOnNotice n (withoutNotice s d) = withoutNotice (setWakePending d s) d := by
        simp only [actOnNotice, hd, State.dom, withoutNotice] at hs ⊢
        rw [hs, hw]
        rfl
      rw [hact]
      refine waitLaw_withoutNotice (s := setWakePending d s) hn (waitLaw_setWakePending h d) ?_
      rw [setWakePending, State.dom_setDom_same]
      exact ⟨by simp [hs], by simp [hs], fun _ => .inr (.inl rfl)⟩
    case low =>
      have hact : actOnNotice n (withoutNotice s d) = withoutNotice (waking d s) d := by
        simp only [actOnNotice, hd, State.dom, withoutNotice] at hs ⊢
        rw [hs, hw]
        rfl
      rw [hact]
      exact waitLaw_withoutNotice (s := waking d s) hn (waitLaw_waking h d)
        (State.dom_setDom_same s d _ ▸ sleeps_awake (.inr (.inr rfl)))
    case fault =>
      exact waitLaw_actOnNotice (waitLaw_withoutNotice hn h ⟨by simp [hs], hfault, by simp [hs]⟩) n
    all_goals exact waitLaw_actOnNotice (waitLaw_withoutNotice hn h (sleeps_awake (by simp [hs]))) n

end Notices

/-! ## The rows of the domain controller -/

section Commands

variable {s t u : State} (h : WaitLaw s)
include h

theorem waitLaw_inFrame {c : Option Command} (hu : WaitLaw u) (ht : inFrame c s u = .next t) : WaitLaw t := by
  obtain rfl := Host.Outcome.next.inj ht
  exact waitLaw_ite h fun _ => hu

omit h in
theorem waitLaw_next (hu : WaitLaw u) (ht : (.next u : Host.Outcome State Fault Refusal) = .next t) : WaitLaw t :=
  Host.Outcome.next.inj ht ▸ hu

theorem waitLaw_execArrivalNotice {d : DomainId} (ht : execArrivalNotice d s = .next t) : WaitLaw t := by
  refine waitLaw_whileRunning h ?_ ht
  split
  · next hn => exact waitLaw_takeNotice hn h
  · exact h

theorem waitLaw_execCommandTransfer (ht : execCommandTransfer s = .next t) : WaitLaw t := by
  refine waitLaw_whileRunning h ?_ ht
  split
  · split <;> exact h
  · exact h

theorem waitLaw_execKeepClaim {d : DomainId} (ht : execKeepClaim d s = .next t) : WaitLaw t := by
  have hdrop : WaitLaw (s.dropClaim .keep d) := h
  refine waitLaw_whileRunning h ?_ ht
  split
  · split
    · exact waitLaw_takeKeep hdrop d
    · exact hdrop
  · exact h

theorem waitLaw_execRaiseClaim {d : DomainId} (ht : execRaiseClaim d s = .next t) : WaitLaw t := by
  have hdrop : WaitLaw (s.dropClaim .raise d) := h
  refine waitLaw_whileRunning h ?_ ht
  split
  · split
    · exact waitLaw_takeRaiseClaim hdrop _
    · exact hdrop
  · exact h

theorem waitLaw_execGoverningSwitchTaken {d : DomainId} (ht : execGoverningSwitchTaken d s = .next t) : WaitLaw t := by
  have hdrop : WaitLaw { s with switches := s.switches.filter (fun c => c != d) } := h
  exact waitLaw_whileRunning h (waitLaw_ite h fun _ => waitLaw_takeSwitch hdrop d) ht

/-! ## The management commands -/

theorem waitLaw_switchToTransparent : WaitLaw (switchToTransparent s) := by
  refine waitLaw_of_lightens h (lightens_of_pool rfl rfl) (fun d => ?_) fun d hv => .inl ?_
  · rw [switchToTransparent_dom]
    exact ((h.sleeps d).lightens (lightens_of_pool rfl rfl)).congr rfl id
  · rwa [switchToTransparent_dom]

theorem waitLaw_takeMode (m : Mode) : WaitLaw (takeMode m s) := by
  unfold takeMode
  split
  · exact h
  · cases m with
    | governing => exact h
    | transparent =>
      dsimp only
      split
      · exact waitLaw_reply (waitLaw_switchToTransparent h) _ _
      · exact h

theorem waitLaw_execSetMode {b : Byte} (ht : execSetMode b s = .next t) : WaitLaw t := by
  refine waitLaw_inFrame h ?_ ht
  split
  · exact waitLaw_takeMode h _
  · exact h

theorem waitLaw_execWriteWindow {b : Byte} {r : Vector Byte 12} (ht : execWriteWindow b r s = .next t) :
    WaitLaw t := by
  refine waitLaw_inFrame h ?_ ht
  split
  · split <;> exact h
  · exact h

theorem waitLaw_execWriteDomain {b : Byte} {r : Vector Byte 8} (ht : execWriteDomain b r s = .next t) : WaitLaw t := by
  refine waitLaw_inFrame h ?_ ht
  split
  · split
    · split
      · exact h
      · exact waitLaw_reply (waitLaw_takeConfig h _ _) _ _
    · exact h
  · exact h

theorem waitLaw_execRaiseAction {b a x : Byte} (ht : execRaiseAction b a x s = .next t) : WaitLaw t := by
  refine waitLaw_inFrame h ?_ ht
  split
  · split
    · exact h
    split
    · exact h
    split
    · exact h
    · exact waitLaw_takeRaise h _
  · split <;> exact h

theorem waitLaw_execLowerAction {b l : Byte} (ht : execLowerAction b l s = .next t) : WaitLaw t := by
  refine waitLaw_inFrame h ?_ ht
  split
  · split
    · split
      · exact h
      · exact waitLaw_takeLower h _ _
    · exact h
  · exact h

theorem waitLaw_execValidate {b x : Byte} (ht : execValidate b x s = .next t) : WaitLaw t := by
  refine waitLaw_inFrame h ?_ ht
  split
  · next d _ =>
    have key : WaitLaw (s.setDom d { s.dom d with contentsValid := true }) :=
      waitLaw_setDom_same h d rfl id fun _ => rfl
    exact waitLaw_actionReply key d 0
  · exact h

theorem waitLaw_execFlush {b x : Byte} (ht : execFlush b x s = .next t) : WaitLaw t := by
  refine waitLaw_inFrame h ?_ ht
  split
  · exact waitLaw_takeFlush h _
  · exact h

theorem waitLaw_execWriteInitiator {b q f : Byte} (ht : execWriteInitiator b q f s = .next t) : WaitLaw t := by
  refine waitLaw_inFrame h ?_ ht
  split
  · split
    · exact h
    · refine waitLaw_reply ?_ _ _
      unfold storeInitiator
      dsimp only
      split
      · exact waitLaw_prompt h
      · exact h
  · exact h

theorem waitLaw_execBadCommand {c : Byte} (ht : execBadCommand c s = .next t) : WaitLaw t := by
  refine waitLaw_inFrame h ?_ ht
  split
  · rw [takeCode_eq]
    exact h
  · exact h

theorem waitLaw_execRecordRemoval (ht : execRecordRemoval s = .next t) : WaitLaw t := by
  refine waitLaw_next (waitLaw_ite h fun _ => ?_) ht
  split <;> exact h

end Commands

/-! ## The commands that read the other laws -/

section Laws

variable {s t : State} (h : Kept s)
include h

theorem Kept.waitLaw : WaitLaw s := by
  obtain ⟨-, -, -, -, -, -, -, -, -, -, hwait⟩ := h
  exact hwait

theorem waitLaw_execAcknowledge {o : AckOutcome} {d : DomainId} (ht : execAcknowledge o d s = .next t) : WaitLaw t := by
  obtain ⟨-, hp, hc, hslots, -, -, -, -, -, hquiet, hwait⟩ := id h
  refine waitLaw_whileRunning hwait ?_ ht
  split
  · next hk => exact waitLaw_deliver hp hc d hwait hslots hquiet hk o
  · exact waitLaw_offer hwait _
  · exact waitLaw_offer hwait _

theorem waitLaw_execClearFault {b a : Byte} (ht : execClearFault b a s = .next t) : WaitLaw t := by
  obtain ⟨-, hp, hc, -, -, -, -, -, -, hquiet, hwait⟩ := id h
  refine waitLaw_inFrame hwait ?_ ht
  split
  · next d _ =>
    split
    · split
      · exact hwait
      split
      · next hs =>
        have hzero : (s.dom d).inFlight = 0 := by simpa [hs] using hquiet d
        exact waitLaw_actionReply (waitLaw_takeAssumption hwait hp d hc hzero _ hs) _ _
      · exact hwait
    · exact hwait
  · exact hwait

theorem exec_waitLaw {c : Instr} (ht : exec c s = .next t) : WaitLaw t := by
  obtain ⟨-, hp, -, -, -, -, -, hm, -⟩ := id h
  have hw := h.waitLaw
  cases c with
  | acceptance r => exact waitLaw_execAcceptance hw hp hm ht
  | arrivalNotice d => exact waitLaw_execArrivalNotice hw ht
  | issue => exact waitLaw_execIssue hw hp ht
  | downstreamResponse r => exact waitLaw_execDownstreamResponse hw ht
  | forwarding => exact waitLaw_execForwarding hw ht
  | declineSend => exact waitLaw_execDeclineSend hw ht
  | reExamination => exact waitLaw_execReExamination hw hp ht
  | holdDeadlineExpiry i => exact waitLaw_execHoldDeadlineExpiry hw ht
  | stallDeadlineExpiry => exact waitLaw_execStallDeadlineExpiry hw ht
  | idleTimerExpiry d => exact waitLaw_whileRunning hw (waitLaw_ite hw fun _ => waitLaw_enterDraining hw d _) ht
  | drainCompletion d => exact waitLaw_whileRunning hw (waitLaw_completeDrain hw d) ht
  | deepTimerExpiry d =>
    exact waitLaw_whileRunning hw (waitLaw_ite hw fun hdue => waitLaw_lowering hw d _ (.inl hdue.1)) ht
  | ackTimerExpiry d => exact waitLaw_whileRunning hw (waitLaw_ite hw fun _ => waitLaw_abandonCommand hw hp d) ht
  | commandTransfer => exact waitLaw_execCommandTransfer hw ht
  | acknowledge o d => exact waitLaw_execAcknowledge h ht
  | keepClaim d => exact waitLaw_execKeepClaim hw ht
  | raiseClaim d => exact waitLaw_execRaiseClaim hw ht
  | portReset => exact waitLaw_execPortReset hw ht
  | portResetRelease => exact waitLaw_next (u := { s with portReset := false }) hw ht
  | powerOnReset =>
    obtain rfl := Host.Outcome.next.inj ht
    split
    · exact hw
    · exact (kept_powerOn true s).waitLaw
  | powerOnResetRelease =>
    obtain rfl := Host.Outcome.next.inj ht
    exact waitLaw_ite hw fun _ => (kept_powerOn false s).waitLaw
  | governingSwitchTaken d => exact waitLaw_execGoverningSwitchTaken hw ht
  | readStatus =>
    refine waitLaw_inFrame hw ?_ ht
    exact hw
  | setMode m => exact waitLaw_execSetMode hw ht
  | writeWindow w r => exact waitLaw_execWriteWindow hw ht
  | writeDomain d r => exact waitLaw_execWriteDomain hw ht
  | raiseAction d a x => exact waitLaw_execRaiseAction hw (x := x) ht
  | lowerAction d l => exact waitLaw_execLowerAction hw ht
  | clearFault d a => exact waitLaw_execClearFault h ht
  | validate d x => exact waitLaw_execValidate hw (x := x) ht
  | flush d x => exact waitLaw_execFlush hw (x := x) ht
  | readWindow _ | readDomain _ | listHeld _ | readInitiator _ | popEvents _ | setEventControl _ _ _ =>
    refine waitLaw_inFrame hw ?_ ht
    split <;> exact hw
  | writeInitiator n q f => exact waitLaw_execWriteInitiator hw ht
  | recordRemoval => exact waitLaw_execRecordRemoval hw ht
  | badCommand code => exact waitLaw_execBadCommand hw ht
  | frameAbort bits =>
    obtain rfl := Host.Outcome.next.inj ht
    exact waitLaw_ite hw fun _ => hw
  | frameEnd | chipSelectFalling | ignoringEnd =>
    obtain rfl := Host.Outcome.next.inj ht
    exact waitLaw_ite hw fun _ => hw
  | timebaseAdvance => exact waitLaw_whileRunning (u := { s with timebase := s.timebase + 1 }) hw hw ht

end Laws

theorem step_waitLaw {s t : State} (h : Kept s) (hstep : step s = .next t) : WaitLaw t := by
  unfold step at hstep
  split at hstep
  · exact Host.Outcome.next.inj hstep ▸ h.waitLaw
  · next rest _ =>
    have hrest : Kept { s with pending := rest } := h
    exact exec_waitLaw hrest hstep

end Sys2Proof.Machine

namespace Sys2Proof.Proofs

set_option Elab.async false

open Sys2Proof.Machine

/-- Settles O58: a list that a sleeping domain leaves waiting always has a wake outstanding or pending. -/
theorem stepKeepsHoldLaw : Obligations.StepKeepsHoldLaw := by
  intro s t h hstep
  obtain ⟨hhold, -⟩ := step_waitLaw h hstep
  exact hhold

/-- Settles O59: what passes does so over an empty list, and what loses a domain's contents leaves no guarded read waiting. -/
theorem stepKeepsOrderAndGuards : Obligations.StepKeepsOrderAndGuards := by
  intro s t h hstep
  obtain ⟨-, hpass, hguard⟩ := step_waitLaw h hstep
  exact ⟨hpass, hguard⟩

end Sys2Proof.Proofs
end

section
/-! The order of release: the oldest HELD entry of all, and what an issue may overtake (R61, R87, R108, R109, R112). -/

namespace Sys2Proof.Proofs

-- One proof after another: the memory of a compile grows with the proofs that run at once.
set_option Elab.async false

open Sys2Proof.Machine Sys2Proof.Claims

theorem orderOf_eq {s : State} {i : EntryIdx} {e : Entry} (he : s.entry i = some e) : s.orderOf i = e.order := by
  rw [State.orderOf, he]

section Pool

variable {s : State} (hp : PoolKept s) {i j : EntryIdx} {e f : Entry}
include hp

/-- The STALLED and the PASSING entry are younger than every other (R60, R94). -/
theorem order_lt_of_single (he : s.entry i = some e) (hf : s.entry j = some f)
    (hs : f.state = .passing ∨ f.state = .stalled) (hne : j ≠ i) : e.order < f.order := by
  obtain ⟨_, _, ⟨_, _, _, hyoung⟩, _⟩ := hp
  exact hyoung j i hne f hf hs.symm e he

theorem mem_held_of_entry (he : s.entry i = some e) (hs : e.state = .held) {l : ListId} (hl : e.list = some l) :
    i ∈ s.held l := by
  obtain ⟨_, ⟨_, hlisted, _⟩, _⟩ := hp
  obtain ⟨k, hk, hi⟩ := hlisted i e he hs
  obtain rfl := Option.some.inj (hk.symm.trans hl)
  exact hi

/-- A list stands in the order of acceptance (R81). -/
theorem orderOf_head_lt {l : ListId} {rest : List EntryIdx} (hl : s.held l = i :: rest) (hj : j ∈ s.held l)
    (hne : j ≠ i) : s.orderOf i < s.orderOf j := by
  obtain ⟨_, ⟨_, _, hsorted⟩, _⟩ := hp
  have hpair := hsorted l (mem_allLists l)
  rw [hl] at hpair hj
  exact List.rel_of_pairwise_cons hpair ((List.mem_cons.mp hj).resolve_left hne)

/-! ## The oldest HELD entry -/

section Oldest

variable (he : s.entry i = some e) (hs : e.state = .held)
  (hold : ∀ j f, s.entry j = some f → f.state = .held → j ≠ i → e.order < f.order)
include he hs hold

theorem held_cons_of_oldest {l : ListId} (hl : e.list = some l) : ∃ rest, s.held l = i :: rest := by
  have hi := mem_held_of_entry hp he hs hl
  cases hcons : s.held l with
  | nil => simp [hcons] at hi
  | cons j rest =>
    by_cases hne : i = j
    · exact ⟨rest, hne ▸ rfl⟩
    · obtain ⟨f, hf, hfs, -⟩ := held_live hp (hcons ▸ List.mem_cons_self : j ∈ s.held l)
      have hlt := orderOf_head_lt hp hcons hi hne
      have hgt := hold j f hf hfs (Ne.symm hne)
      rw [orderOf_eq he, orderOf_eq hf] at hlt
      omega

/-- It waits for no older entry of its initiator, strict or not (R87). -/
theorem eligible_of_oldest {l : ListId} (hl : e.list = some l) (hm : s.mode = .governing)
    (hopen : ∀ d, l = .domain d → (s.dom d).state = .active ∨ (s.dom d).state = .draining) : Eligible s l i := by
  obtain ⟨rest, hcons⟩ := held_cons_of_oldest hp he hs hold hl
  refine ⟨e, rest, hcons, he, hm, hopen, fun _ j f hf hfs _ => Nat.not_lt.mpr ?_⟩
  by_cases hne : j = i
  · obtain rfl := Option.some.inj (he.symm.trans (hne ▸ hf))
    exact le_rfl
  · rcases hfs with hheld | hstalled
    · exact (hold j f hf hheld hne).le
    · exact (order_lt_of_single hp he hf (.inr hstalled) hne).le

omit hs in
/-- Every other member of the release group is HELD, and so younger. -/
theorem releaseCandidate_of_oldest {l : ListId} (hel : Eligible s l i) : s.releaseCandidate = some i := by
  obtain ⟨hnone, hsome⟩ := releaseCandidateIsOldestEligibleHead s
  cases hr : s.releaseCandidate with
  | none => exact absurd hel (hnone.mp hr l i)
  | some r =>
    obtain ⟨⟨k, f, rest, hcons, hf, -⟩, hle⟩ := hsome r hr
    obtain ⟨g, hg, hgs, -⟩ := held_live hp (hcons ▸ List.mem_cons_self : r ∈ s.held k)
    by_contra hne
    have hlt := hold r g hg hgs fun heq => hne (heq ▸ rfl)
    have := hle l i hel
    rw [orderOf_eq hg, orderOf_eq he] at this
    omega

end Oldest

end Pool

/-- Settles O36: the oldest HELD entry heads its list, and no eligible head is older. -/
theorem oldestHeldEntryIsReleased : Obligations.OldestHeldEntryIsReleased := by
  intro s i e l hp hm he hs hl hold hopen
  have hel := eligible_of_oldest hp he hs hold hl hm hopen
  exact ⟨hel, releaseCandidate_of_oldest hp he hold hel⟩

/-! ## What an issue overtakes -/

theorem issuePassing_entry_ne (s : State) {i j : EntryIdx} (e : Entry) (hne : j ≠ i) :
    (issuePassing i e s).entry j = s.entry j :=
  ((puts_issueEntry i e s).entry j).trans (if_neg hne)

theorem issueHeld_entry_ne (s : State) {i j : EntryIdx} (e : Entry) (hne : j ≠ i) :
    (issueHeld i e s).entry j = s.entry j := by
  have hputs := (puts_issueEntry i e (givePlace e.initiator (leaveLists i s))).entry j
  rw [issueHeld, prompt_eq]
  exact hputs.trans (if_neg hne)

theorem exec_issue_entry {s t : State} {i : EntryIdx} (ht : exec .issue s = .next t) (hi : s.issueChoice ≠ some i) :
    t.entry i = s.entry i := by
  obtain rfl := Host.Outcome.next.inj ht
  split
  · rfl
  split
  · next p hp =>
    have hne : i ≠ p := fun h => hi (h ▸ hp)
    split
    · split
      · exact issuePassing_entry_ne s _ hne
      · exact issueHeld_entry_ne s _ hne
    · rfl
  · rfl

/-- An entry that an ISSUE makes ISSUED is the one that the turn chose (R61, R62). -/
theorem issueChoice_of_issued {s t : State} {i : EntryIdx} {e e' : Entry} (ht : exec .issue s = .next t)
    (he : s.entry i = some e) (hs : e.state ≠ .issued) (he' : t.entry i = some e') (hs' : e'.state = .issued) :
    s.issueChoice = some i := by
  by_contra hi
  rw [exec_issue_entry ht hi, he] at he'
  exact hs (Option.some.inj he' ▸ hs')

section Overtaking

variable {s : State} {i j : EntryIdx} {e f : Entry} (he : s.entry i = some e) (hf : s.entry j = some f) (hne : j ≠ i)
include he hf hne

/-- The release candidate heads its list, and a strict initiator has nothing older in the pool (R87). -/
theorem released_overtakes_none (hp : PoolKept s) (hi : s.releaseCandidate = some i) (hfs : f.state = .held) :
    (∀ l, e.list = some l → f.list = some l → e.order < f.order) ∧
    ((s.init e.initiator).strict = true → f.initiator = e.initiator → e.order < f.order) := by
  obtain ⟨⟨_, hdistinct⟩, _⟩ := id hp
  obtain ⟨-, hsome⟩ := releaseCandidateIsOldestEligibleHead s
  obtain ⟨⟨k, g, rest, hcons, hg, -, -, hstrict⟩, -⟩ := hsome i hi
  obtain rfl := Option.some.inj (he.symm.trans hg)
  obtain ⟨g, hg, -, hlist⟩ := held_live hp (hcons ▸ List.mem_cons_self : i ∈ s.held k)
  obtain rfl := Option.some.inj (he.symm.trans hg)
  refine ⟨fun l hl hfl => ?_, fun hst hini => ?_⟩
  · obtain rfl := Option.some.inj (hlist.symm.trans hl)
    have hlt := orderOf_head_lt hp hcons (mem_held_of_entry hp hf hfs hfl) hne
    rwa [orderOf_eq he, orderOf_eq hf] at hlt
  · have hdiff := hdistinct i j hne.symm e he f hf
    have hnot := hstrict hst j f hf (.inl hfs) hini
    omega

end Overtaking

/-- Settles O37: a PASSING entry is alone in its list, the release candidate heads its list, and the STALLED and the PASSING
entry are the youngest. -/
theorem listsAreIssuedInOrder : Obligations.ListsAreIssuedInOrder := by
  intro s t i e e' hkept ht he hs he' hs' j f hf hfs hne
  obtain ⟨-, hp, -⟩ := id hkept
  obtain ⟨-, hpass, -⟩ := hkept.waitLaw
  have hchoice := issueChoice_of_issued ht he hs he' hs'
  have hyounger : f.state = .passing ∨ f.state = .stalled → e.order < f.order := fun h =>
    order_lt_of_single hp he hf h hne
  rcases hfs with hfpass | hfheld | hfstalled
  · exact ⟨fun _ _ _ => hyounger (.inl hfpass), fun _ _ _ => hyounger (.inl hfpass)⟩
  · rcases issueChoice_cases hchoice with hstage | hrelease
    · obtain ⟨_, _, ⟨_, _, hseat, _⟩, _⟩ := id hp
      obtain ⟨g, hg, hgs⟩ := state_of_entryIn ((hseat i).mp hstage)
      obtain rfl := Option.some.inj (he.symm.trans hg)
      refine ⟨fun l hl hfl => ?_, fun hheld => by simp [hheld] at hgs⟩
      have hmem := mem_held_of_entry hp hf hfheld hfl
      simp [hpass i e he hgs l hl] at hmem
    · obtain ⟨hlist, hstrict⟩ := released_overtakes_none he hf hne hp hrelease hfheld
      exact ⟨hlist, fun _ => hstrict⟩
  · exact ⟨fun _ _ _ => hyounger (.inr hfstalled), fun _ _ _ => hyounger (.inr hfstalled)⟩

end Sys2Proof.Proofs
end

section
/-! The hold pool's own events: RE_EXAMINATION, and the expiry of the hold deadlines (R80, R85, R91, R92, R95 to R97). -/

namespace Sys2Proof.Proofs

-- One proof after another: the memory of a compile grows with the proofs that run at once.
set_option Elab.async false

open Sys2Proof.Machine Sys2Proof.Claims

theorem exec_reExamination_def (s : State) : exec .reExamination s = execReExamination s := rfl

theorem exec_holdDeadlineExpiry_def (i : EntryIdx) (s : State) :
    exec (.holdDeadlineExpiry i) s = execHoldDeadlineExpiry i s := rfl

theorem exec_stallDeadlineExpiry_def (s : State) : exec .stallDeadlineExpiry s = execStallDeadlineExpiry s := rfl

/-! ## Re-examination -/

/-- The STALLED entry leaves the stall slot and its place of the pool, and is declined (R92, R95, R97). -/
theorem declineStalled_eq {i : EntryIdx} {e : Entry} {s : State} (c : DeclineCode) (he : s.entry i = some e) :
    declineStalled c s i = declinedAt i e c { placeGiven e.initiator s with stalled := none, prompts := 0 } := by
  have hgiven : (givePlace e.initiator (leaveStall s)).entry i = some e := he
  simp only [declineStalled, he]
  exact decline_eq c hgiven

theorem passEntry_uncounted {i : EntryIdx} {e : Entry} (s : State) (hc : e.counted = false) :
    passEntry i e s =
      countedIn e
        { s.setEntry i (some { e with state := .passing, counted := e.domain?.isSome }) with stage := some i } :=
  passEntry_eq (e := { e with state := .passing }) s rfl hc

section ReExamination

variable {s : State} {i : EntryIdx} {e : Entry}

theorem reExamine_of_pass (hx : reExamined s e = .pass) (hc : e.counted = false) :
    reExamine i e s =
      noticed e false
        (countedIn e
          { (placeGiven e.initiator s).setEntry i
              (some { e with state := .passing, counted := e.domain?.isSome }) with
            stalled := none, prompts := 0, stage := some i }) := by
  simp only [reExamine, hx, passEntry_uncounted _ hc]
  rfl

theorem reExamine_of_room {r : HoldReason} {l : ListId} (hx : reExamined s e = .hold r) (hl : e.list = some l)
    (hroom : RoomFor s e.initiator 1) :
    reExamine i e s =
      noticed e (r == .wake)
        { (s.setEntry i (some { e with state := .held, reason := some r })).setHeld l (s.held l ++ [i]) with
          stalled := none, prompts := 0 } := by
  simp only [reExamine, hx, if_pos ((room_iff ..).mpr hroom), joinList_eq r _ hl]
  cases l <;> rfl

theorem reExamine_of_no_room {r : HoldReason} (hx : reExamined s e = .hold r) (hroom : ¬RoomFor s e.initiator 1) :
    reExamine i e s = { s with prompts := s.prompts - 1 } := by
  simp only [reExamine, hx, if_neg (mt (room_iff ..).mp hroom)]

theorem reExamine_of_decline {c : DeclineCode} (hx : reExamined s e = .decline c) (he : s.entry i = some e) :
    reExamine i e s = declinedAt i e c { placeGiven e.initiator s with stalled := none, prompts := 0 } := by
  simp only [reExamine, hx, declineStalled_eq c he]

variable (hr : s.inReset = false) (hst : s.stalled = some i) (he : s.entry i = some e)
include hr hst he

theorem exec_reExamination_of_no_prompt (hp : s.prompts = 0) : exec .reExamination s = .next s := by
  simp only [exec_reExamination_def, execReExamination, hst, he, hp, Nat.lt_irrefl, if_false, whileRunning_running hr]

theorem exec_reExamination_of_prompt (hp : 0 < s.prompts) : exec .reExamination s = .next (reExamine i e s) := by
  simp only [exec_reExamination_def, execReExamination, hst, he, hp, if_true, whileRunning_running hr]

end ReExamination

/-- Settles O40: by the decision, and by the room for an entry that must be held. -/
theorem reExaminationDecidesAgain : Obligations.ReExaminationDecidesAgain := by
  intro s i e hr hst he
  refine ⟨exec_reExamination_of_no_prompt hr hst he, fun hp => ?_⟩
  rw [exec_reExamination_of_prompt hr hst he hp]
  refine ⟨fun hx hc => ?_, fun r l hx hl hroom => ?_, fun r hx hroom => ?_, fun c hx => ?_⟩
  · rw [reExamine_of_pass hx hc]
  · rw [reExamine_of_room hx hl hroom]
  · rw [reExamine_of_no_room hx hroom]
  · rw [reExamine_of_decline hx he]

/-! ## Hold deadlines -/

theorem deadlineDue_iff (e : Entry) (now : Word) : e.deadlineDue now = true ↔ DeadlinePassed e now := by
  unfold Entry.deadlineDue DeadlinePassed
  cases e.deadline <;> simp

theorem declineHeld_eq {i : EntryIdx} {e : Entry} {s : State} (c : DeclineCode) (he : s.entry i = some e) :
    declineHeld c s i = declinedAt i e c (placeGiven e.initiator (unlisted i s)) := by
  have hgiven : (givePlace e.initiator (unlisted i s)).entry i = some e := he
  simp only [declineHeld, he, leaveLists_eq]
  exact decline_eq c hgiven

section Deadlines

variable {s : State} {i : EntryIdx} {e : Entry} (hr : s.inReset = false) (he : s.entry i = some e)
include hr

theorem exec_stallDeadlineExpiry_of_none (hst : s.stalled = none) : exec .stallDeadlineExpiry s = .next s := by
  simp only [exec_stallDeadlineExpiry_def, execStallDeadlineExpiry, hst, whileRunning_running hr]

include he

theorem exec_holdDeadlineExpiry_due (hs : e.state = .held) (hd : DeadlinePassed e s.timebase) :
    exec (.holdDeadlineExpiry i) s = .next (prompt (declineHeld .holdTimeout s i)) := by
  simp only [exec_holdDeadlineExpiry_def, execHoldDeadlineExpiry, he, whileRunning_running hr,
    if_pos (And.intro hs ((deadlineDue_iff ..).mpr hd))]

theorem exec_holdDeadlineExpiry_not_due (hd : e.state ≠ .held ∨ ¬DeadlinePassed e s.timebase) :
    exec (.holdDeadlineExpiry i) s = .next s := by
  have hnot : ¬(e.state = .held ∧ e.deadlineDue s.timebase = true) := fun ⟨hs, hdue⟩ =>
    hd.elim (fun h => h hs) fun h => h ((deadlineDue_iff ..).mp hdue)
  simp only [exec_holdDeadlineExpiry_def, execHoldDeadlineExpiry, he, whileRunning_running hr, if_neg hnot]

variable (hst : s.stalled = some i)
include hst

theorem exec_stallDeadlineExpiry_due (hd : DeadlinePassed e s.timebase) :
    exec .stallDeadlineExpiry s = .next (declineStalled .holdTimeout s i) := by
  simp only [exec_stallDeadlineExpiry_def, execStallDeadlineExpiry, hst, he, whileRunning_running hr,
    if_pos ((deadlineDue_iff ..).mpr hd)]

theorem exec_stallDeadlineExpiry_not_due (hd : ¬DeadlinePassed e s.timebase) :
    exec .stallDeadlineExpiry s = .next s := by
  simp only [exec_stallDeadlineExpiry_def, execStallDeadlineExpiry, hst, he, whileRunning_running hr,
    if_neg (mt (deadlineDue_iff ..).mp hd)]

end Deadlines

/-- Settles O41: by whether the deadline has passed. -/
theorem holdDeadlinesDecline : Obligations.HoldDeadlinesDecline := by
  intro s i e hr he
  refine ⟨fun hs hd => ?_, exec_holdDeadlineExpiry_not_due hr he, fun hst hd => ?_,
    exec_stallDeadlineExpiry_not_due hr he, exec_stallDeadlineExpiry_of_none hr⟩
  · rw [exec_holdDeadlineExpiry_due hr he hs hd, prompt_eq, declineHeld_eq _ he, prompted]
  · rw [exec_stallDeadlineExpiry_due hr he hst hd, declineStalled_eq _ he]

end Sys2Proof.Proofs
end

section
/-! LIST HELD, READ INITIATOR and WRITE INITIATOR (R86, R96, R106, R162, R172 to R174, R184). -/

namespace Sys2Proof.Proofs

-- One proof after another: the memory of a compile grows with the proofs that run at once.
set_option Elab.async false

open Sys2Proof.Machine Sys2Proof.Claims

theorem exec_listHeld_def (b : Byte) (s : State) : exec (.listHeld b) s = execListHeld b s := rfl

theorem exec_readInitiator_def (b : Byte) (s : State) : exec (.readInitiator b) s = execReadInitiator b s := rfl

theorem exec_writeInitiator_def (b q f : Byte) (s : State) : exec (.writeInitiator b q f) s = execWriteInitiator b q f s :=
  rfl

/-! ## The summary of a held entry -/

/-- The twelve bytes of a summary by their values (R106, R184). -/
def heldSummary (s : State) (e : Entry) : List Byte :=
  let age := min (s.timebase - e.arrival).toNat 16777215
  [BitVec.ofNat 8 e.initiator.val, e.tag,
   BitVec.ofNat 8
     (weigh 1 (e.direction == .write) + weigh 2 (e.privilege == .privileged) + weigh 4 (e.reason == some .order)),
   BitVec.ofNat 8 e.length,
   e.address.extractLsb' 24 8, e.address.extractLsb' 16 8, e.address.extractLsb' 8 8, e.address.extractLsb' 0 8,
   BitVec.ofNat 8 (age / 65536), BitVec.ofNat 8 (age / 256), BitVec.ofNat 8 age, 0]

/-- The bits of a number that fits are its quotient's. -/
theorem extractLsb'_ofNat {n a : Nat} (h : a < 2 ^ n) (k m : Nat) :
    (BitVec.ofNat n a).extractLsb' k m = BitVec.ofNat m (a / 2 ^ k) := by
  refine BitVec.eq_of_toNat_eq ?_
  rw [BitVec.extractLsb'_toNat, BitVec.toNat_ofNat, BitVec.toNat_ofNat, Nat.mod_eq_of_lt h, Nat.shiftRight_eq_div_pow]

theorem ageOf_bits (s : State) (e : Entry) (k : Nat) :
    (ageOf s e).extractLsb' k 8 = BitVec.ofNat 8 (min (s.timebase - e.arrival).toNat 16777215 / 2 ^ k) :=
  extractLsb'_ofNat (Nat.lt_of_le_of_lt (Nat.min_le_right _ _) (by decide)) k 8

theorem summary_flags (r : Bool) (p : Privilege) (d : Direction) :
    (0 : BitVec 5) ++ flag r ++ p.bit ++ d.bit =
      BitVec.ofNat 8 (weigh 1 (d == .write) + weigh 2 (p == .privileged) + weigh 4 r) := by
  cases r <;> cases p <;> cases d <;> rfl

theorem summaryBytes_eq (s : State) (e : Entry) : summaryBytes s e = heldSummary s e := by
  rw [summaryBytes, summary_flags, ageOf_bits, ageOf_bits, ageOf_bits, pow_zero, Nat.div_one]
  rfl

theorem listBytes_eq (s : State) (l : ListId) :
    listBytes s l =
      BitVec.ofNat 8 (s.held l).length :: ((s.held l).filterMap s.entry).flatMap (heldSummary s) := by
  rw [listBytes, funext (summaryBytes_eq s)]

/-! ## LIST HELD -/

theorem listOf?_ofNat (d : DomainId) : listOf? (BitVec.ofNat 8 d.val) = some (.domain d) := by
  have hd : d.val % 256 = d.val := Nat.mod_eq_of_lt (by omega)
  simp [listOf?, hd]

theorem listOf?_eq_none {b : Byte} (h : 9 ≤ b.toNat) : listOf? b = none := by
  rw [listOf?, dif_neg (by omega), if_neg (by omega)]

section ListHeld

variable {s : State} (hf : s.awaits (some .listHeld) = true) {b : Byte}
include hf

theorem exec_listHeld_refused (hb : 9 ≤ b.toNat) : exec (.listHeld b) s = .next (answered [0x02] s) := by
  simp only [exec_listHeld_def, execListHeld, inFrame_open hf, listOf?_eq_none hb, reply_eq_answered, Status.value]

theorem exec_listHeld {l : ListId} (hl : listOf? b = some l) :
    exec (.listHeld b) s = .next (answered (0x00 :: listBytes s l) s) := by
  simp only [exec_listHeld_def, execListHeld, inFrame_open hf, hl, reply_eq_answered, Status.value]

end ListHeld

/-- Settles O23: by the list that the argument names. -/
theorem listHeldReports : Obligations.ListHeldReports := by
  intro s hf
  refine ⟨fun b => exec_listHeld_refused hf, fun d => ?_, ?_⟩
  · rw [exec_listHeld hf (listOf?_ofNat d), listBytes_eq]
    rfl
  · rw [exec_listHeld hf (show listOf? 8 = some .openPath from rfl), listBytes_eq]
    rfl

/-! ## READ INITIATOR -/

theorem initiatorOf?_ofNat (n : InitiatorId) : initiatorOf? (BitVec.ofNat 8 n.val) = some n := by
  have hn : n.val % 256 = n.val := Nat.mod_eq_of_lt (by omega)
  simp [initiatorOf?, hn]

theorem initiatorOf?_eq_none {b : Byte} (h : 16 ≤ b.toNat) : initiatorOf? b = none := by
  rw [initiatorOf?, dif_neg (Nat.not_lt.mpr h)]

theorem initiatorBytes_eq (x : Initiator) :
    initiatorBytes x = [BitVec.ofNat 8 x.quota, BitVec.ofNat 8 (weigh 1 x.strict), BitVec.ofNat 8 x.heldCount] := by
  have hstrict : (0 : BitVec 7) ++ flag x.strict = BitVec.ofNat 8 (weigh 1 x.strict) := by cases x.strict <;> rfl
  rw [initiatorBytes, hstrict]

section ReadInitiator

variable {s : State} (hf : s.awaits (some .readInitiator) = true)
include hf

theorem exec_readInitiator_refused {b : Byte} (hb : 16 ≤ b.toNat) :
    exec (.readInitiator b) s = .next (answered [0x02] s) := by
  simp only [exec_readInitiator_def, execReadInitiator, inFrame_open hf, initiatorOf?_eq_none hb, reply_eq_answered,
    Status.value]

theorem exec_readInitiator (n : InitiatorId) :
    exec (.readInitiator (BitVec.ofNat 8 n.val)) s = .next (answered (0x00 :: initiatorBytes (s.init n)) s) := by
  simp only [exec_readInitiator_def, execReadInitiator, inFrame_open hf, initiatorOf?_ofNat, reply_eq_answered,
    Status.value]

end ReadInitiator

/-! ## WRITE INITIATOR -/

theorem stalledOf_iff (s : State) (n : InitiatorId) :
    s.stalledOf n = true ↔ ∃ i e, s.stalled = some i ∧ s.entry i = some e ∧ e.initiator = n := by
  unfold State.stalledOf
  cases hs : s.stalled with
  | none => simp
  | some i => cases he : s.entry i <;> simp [he]

section StoreInitiator

variable {s : State} {n : InitiatorId} {quota : Nat} (strict : Bool)

/-- A raised quota of the STALLED entry's initiator prompts its re-examination (R96). -/
theorem storeInitiator_of_raised (hq : (s.init n).quota < quota)
    (hown : ∃ i e, s.stalled = some i ∧ s.entry i = some e ∧ e.initiator = n) :
    storeInitiator n quota strict s =
      { s.setInit n { s.init n with quota := quota, strict := strict } with prompts := s.prompts + 1 } := by
  obtain ⟨i, _, hs, -⟩ := id hown
  rw [storeInitiator, if_pos ⟨hq, (stalledOf_iff s n).mpr hown⟩, prompt_eq]
  have hsome : (s.setInit n { s.init n with quota := quota, strict := strict }).stalled.isSome = true :=
    Option.isSome_of_eq_some hs
  rw [if_pos hsome]
  rfl

theorem storeInitiator_of_not_raised
    (h : ¬((s.init n).quota < quota ∧ ∃ i e, s.stalled = some i ∧ s.entry i = some e ∧ e.initiator = n)) :
    storeInitiator n quota strict s = s.setInit n { s.init n with quota := quota, strict := strict } := by
  rw [storeInitiator, if_neg (by rwa [stalledOf_iff])]

end StoreInitiator

section WriteInitiator

variable {s : State} (hf : s.awaits (some .writeInitiator) = true)
include hf

theorem exec_writeInitiator_refused {b : Byte} (hb : 16 ≤ b.toNat) (q f : Byte) :
    exec (.writeInitiator b q f) s = .next (answered [0x02] s) := by
  simp only [exec_writeInitiator_def, execWriteInitiator, inFrame_open hf, initiatorOf?_eq_none hb, reply_eq_answered,
    Status.value]

theorem exec_writeInitiator_badQuota (n : InitiatorId) {q : Byte} (hq : 32 < q.toNat) (f : Byte) :
    exec (.writeInitiator (BitVec.ofNat 8 n.val) q f) s = .next (answered [0x03] s) := by
  have hover : Config.maxQuota < q.toNat := hq
  simp only [exec_writeInitiator_def, execWriteInitiator, inFrame_open hf, initiatorOf?_ofNat, if_pos hover,
    reply_eq_answered, Status.value]

theorem exec_writeInitiator (n : InitiatorId) {q : Byte} (hq : q.toNat ≤ 32) (f : Byte) :
    exec (.writeInitiator (BitVec.ofNat 8 n.val) q f) s =
      .next (answered [0x00] (storeInitiator n q.toNat (f.getLsbD 0) s)) := by
  have hwithin : ¬Config.maxQuota < q.toNat := Nat.not_lt.mpr hq
  simp only [exec_writeInitiator_def, execWriteInitiator, inFrame_open hf, initiatorOf?_ofNat, if_neg hwithin,
    reply_eq_answered, Status.value]

end WriteInitiator

/-- Settles O24: by the index and the quota, and by the STALLED entry for what a stored quota prompts. -/
theorem initiatorCommands : Obligations.InitiatorCommands := by
  intro s
  refine ⟨fun hf => ⟨fun b => exec_readInitiator_refused hf, fun n => ?_⟩, fun hf =>
    ⟨fun b q f hb => exec_writeInitiator_refused hf hb q f, fun n =>
      ⟨fun q f hq => exec_writeInitiator_badQuota hf n hq f, fun q f hq => ?_⟩⟩⟩
  · rw [exec_readInitiator hf, initiatorBytes_eq]
  · exact ⟨_, exec_writeInitiator hf n hq f, fun ⟨hraised, hown⟩ => storeInitiator_of_raised _ hraised hown,
      storeInitiator_of_not_raised _⟩

end Sys2Proof.Proofs
end

section
/-! The command direction of the power channel and the stray acknowledge (R114, R116, R122, R188). -/

namespace Sys2Proof.Proofs

-- One proof after another: the memory of a compile grows with the proofs that run at once.
set_option Elab.async false

open Sys2Proof.Machine Sys2Proof.Claims

theorem exec_commandTransfer_def (s : State) : exec .commandTransfer s = execCommandTransfer s := rfl

theorem commandLines_eq_driven (d : DomainId) (c : PowerCommand) : commandLines d c = driven d c := by
  rcases c with (_ | _) | _ <;> rfl

/-! ## The earliest handed command -/

theorem waitingAt_eq_some_iff {s : State} {d : DomainId} {n : Nat} :
    s.waitingAt d = some n ↔ ∃ c, s.slot d = .waiting c n := by
  unfold State.waitingAt
  cases s.slot d <;> simp

theorem waitingAt_eq_none {s : State} {d : DomainId} (h : ∀ c n, s.slot d ≠ .waiting c n) : s.waitingAt d = none :=
  Option.eq_none_iff_forall_ne_some.mpr fun n hn =>
    let ⟨c, hc⟩ := waitingAt_eq_some_iff.mp hn
    h c n hc

/-- No command among `l` is WAITING, or the chosen domain is of `l` and no WAITING command of `l` was handed before its
own (R116). -/
theorem earliest_cases (s : State) (l : List DomainId) :
    (s.earliest l = none ∧ ∀ c ∈ l, s.waitingAt c = none) ∨
    ∃ d ∈ l, s.earliest l = some d ∧
      ∃ n, s.waitingAt d = some n ∧ ∀ c ∈ l, ∀ m, s.waitingAt c = some m → n ≤ m := by
  induction l with
  | nil => exact .inl ⟨rfl, by simp⟩
  | cons a rest ih =>
    cases ha : s.waitingAt a with
    | none =>
      have hskip : s.earliest (a :: rest) = s.earliest rest := by simp only [State.earliest, ha]
      rw [hskip]
      rcases ih with ⟨hnone, hall⟩ | ⟨d, hd, hearliest, n, hn, hleast⟩
      · exact .inl ⟨hnone, by simpa [ha] using hall⟩
      · exact .inr ⟨d, List.mem_cons_of_mem a hd, hearliest, n, hn, by simpa [ha] using hleast⟩
    | some k =>
      rcases ih with ⟨hnone, hall⟩ | ⟨d, hd, hearliest, n, hn, hleast⟩
      · have hfirst : s.earliest (a :: rest) = some a := by simp only [State.earliest, ha, hnone]
        exact .inr ⟨a, List.mem_cons_self, hfirst, k, ha, by simp +contextual [ha, hall]⟩
      · have hpick : s.earliest (a :: rest) = if n < k then some d else some a := by
          simp only [State.earliest, ha, hearliest, hn, Option.getD_some]
        rw [hpick]
        split
        next hlt =>
          refine .inr ⟨d, List.mem_cons_of_mem a hd, rfl, n, hn, List.forall_mem_cons.mpr ⟨fun m hm => ?_, hleast⟩⟩
          rw [ha, Option.some.injEq] at hm
          omega
        next hge =>
          refine .inr ⟨a, List.mem_cons_self, rfl, k, ha, List.forall_mem_cons.mpr ⟨fun m hm => ?_, fun c hc m hm => ?_⟩⟩
          · rw [ha, Option.some.injEq] at hm
            omega
          · have hle : n ≤ m := hleast c hc m hm
            omega

section Presented

variable {s : State} (hr : s.inReset = false)
include hr

theorem presentedCommand_eq_earliest : s.presentedCommand = s.earliest allDomains := by
  simp [State.presentedCommand, hr]

/-- The command handed before every other is the presented one: the chosen domain's was handed no later (R116). -/
theorem presentedCommand_eq_some {d : DomainId} {c : PowerCommand} {n : Nat} (hd : s.slot d = .waiting c n)
    (hfirst : ∀ d' c' n', d' ≠ d → s.slot d' = .waiting c' n' → n < n') : s.presentedCommand = some d := by
  have hwaits : s.waitingAt d = some n := waitingAt_eq_some_iff.mpr ⟨c, hd⟩
  rw [presentedCommand_eq_earliest hr]
  rcases earliest_cases s allDomains with ⟨_, hall⟩ | ⟨b, _, hb, m, hm, hleast⟩
  · exact absurd (hwaits.symm.trans (hall d (List.mem_finRange d))) (by simp)
  · have hle : m ≤ n := hleast d (List.mem_finRange d) n hwaits
    obtain ⟨k, hk⟩ := waitingAt_eq_some_iff.mp hm
    have hbd : b = d := by
      by_contra hne
      exact absurd (hfirst b k m hne hk) (Nat.not_lt.mpr hle)
    rw [hb, hbd]

theorem presentedCommand_eq_none (h : ∀ d c n, s.slot d ≠ .waiting c n) : s.presentedCommand = none := by
  rw [presentedCommand_eq_earliest hr]
  rcases earliest_cases s allDomains with ⟨hnone, _⟩ | ⟨d, _, _, n, hn, _⟩
  · exact hnone
  · rw [waitingAt_eq_none (h d)] at hn
    cases hn

theorem exec_commandTransfer_none (h : s.presentedCommand = none) : exec .commandTransfer s = .next s := by
  simp only [exec_commandTransfer_def, execCommandTransfer, whileRunning_running hr, h]

theorem exec_commandTransfer {d : DomainId} {c : PowerCommand} {n : Nat} (h : s.presentedCommand = some d)
    (hd : s.slot d = .waiting c n) :
    exec .commandTransfer s = .next
      { s.setSlot d (.taken c) with sent := { s.sent with commands := s.sent.commands ++ [driven d c] } } := by
  simp only [exec_commandTransfer_def, execCommandTransfer, whileRunning_running hr, h, hd, commandLines_eq_driven]

end Presented

theorem commandDriven_none {s : State} (h : s.presentedCommand = none) : s.commandDriven = none := by
  simp only [State.commandDriven, h]

theorem commandDriven_some {s : State} {d : DomainId} {c : PowerCommand} {n : Nat} (h : s.presentedCommand = some d)
    (hd : s.slot d = .waiting c n) : s.commandDriven = some (driven d c) := by
  simp only [State.commandDriven, h, hd, commandLines_eq_driven]

/-- Settles O49: by the presented command, which is the earliest handed one. -/
theorem earliestCommandTransferred : Obligations.EarliestCommandTransferred := by
  intro s hr
  refine ⟨fun d c n hd hfirst => ?_, fun hnone => ?_⟩
  · have hp := presentedCommand_eq_some hr hd hfirst
    exact ⟨commandDriven_some hp hd, exec_commandTransfer hr hp hd⟩
  · have hp := presentedCommand_eq_none hr hnone
    exact ⟨commandDriven_none hp, exec_commandTransfer_none hr hp⟩

/-! ## The stray acknowledge -/

theorem record_eq_plain (s : State) (k : EventKind) : record s k = plain k s.timebase := rfl

theorem ackCode_eq (o : AckOutcome) : ackCode o = if o = .done then 1 else 2 := by
  cases o <;> rfl

theorem exec_acknowledge_stray {s : State} {d : DomainId} (hr : s.inReset = false) (hd : ∀ c, s.slot d ≠ .taken c)
    (o : AckOutcome) :
    exec (.acknowledge o d) s = .next (strayAck o d (if s.slot d = .empty then 0 else 1) s) := by
  rw [exec_acknowledge_def, execAcknowledge, whileRunning_running hr]
  cases hslot : s.slot d with
  | empty => rfl
  | waiting c n => rfl
  | taken c => exact absurd hslot (hd c)

/-- Settles O51: by the slot's condition, EMPTY or WAITING. -/
theorem strayAcknowledgeRecorded : Obligations.StrayAcknowledgeRecorded := by
  intro s d o hr hd
  rw [exec_acknowledge_stray hr hd, strayAck, record_eq_plain, ackCode_eq]

end Sys2Proof.Proofs
end

section
/-! The steering word: its value, its action, and what the steering decoder does with each action (R131 to R133, R138,
R182). -/

namespace Sys2Proof.Proofs

-- One proof after another: the memory of a compile grows with the proofs that run at once.
set_option Elab.async false

open Sys2Proof.Machine Sys2Proof.Claims

/-! ## The fields of the word -/

theorem toNat_steeringValue (lanes : Vector Byte 64) :
    (steeringValue lanes).toNat =
      lanes[0].toNat + 256 * lanes[1].toNat + 65536 * lanes[2].toNat + 16777216 * lanes[3].toNat := by
  rw [steeringValue, toNat_append_byte, toNat_append_byte, toNat_append_byte]
  omega

theorem toNat_steeringAction (v : Word) : (v.extractLsb' 0 2).toNat = v.toNat % 4 := by
  rw [BitVec.extractLsb'_toNat, Nat.shiftRight_zero]

/-- The claims of a word: one of its action for each domain of its mask, in order (R133, R182). -/
def wordClaims (w : WindowId) (r : Request) (a : SteeringAction) : List Claim :=
  (steeringDomains (steeringValue r.lanes)).map (fun d => ⟨a, d, w, r.initiator, r.tag, steeringValue r.lanes⟩)

/-- The record of a word that is ignored whole, for every domain of its mask together (R138). -/
def wordIgnored (w : WindowId) (r : Request) (s : State) (cause : BitVec 16) : Event :=
  ignoredRecord s none w r.initiator r.tag (steeringValue r.lanes) cause

/-! ## What the steering decoder does, by the action -/

section Actions

variable {w : WindowId} {r : Request} {s : State}

theorem takeSteeringWord_none (h : (steeringValue r.lanes).toNat % 4 = 0) : takeSteeringWord w r s = s := by
  simp only [takeSteeringWord, toNat_steeringAction, h]

theorem takeSteeringWord_keep (h : (steeringValue r.lanes).toNat % 4 = 1) :
    takeSteeringWord w r s = { s with claims := s.claims ++ wordClaims w r .keep } := by
  simp only [takeSteeringWord, toNat_steeringAction, h, wordClaims]

theorem takeSteeringWord_raise (h : (steeringValue r.lanes).toNat % 4 = 2) (hw : (s.win w).raisePermitted = true) :
    takeSteeringWord w r s = { s with claims := s.claims ++ wordClaims w r .raise } := by
  simp only [takeSteeringWord, toNat_steeringAction, h, hw, if_true, wordClaims]

theorem takeSteeringWord_raise_not_permitted (h : (steeringValue r.lanes).toNat % 4 = 2)
    (hw : (s.win w).raisePermitted = false) : takeSteeringWord w r s = offer (wordIgnored w r s 2) s := by
  simp only [takeSteeringWord, toNat_steeringAction, h, hw, Bool.false_eq_true, if_false, wordIgnored]

theorem takeSteeringWord_undefined (h : (steeringValue r.lanes).toNat % 4 = 3) :
    takeSteeringWord w r s = offer (wordIgnored w r s 1) s := by
  simp only [takeSteeringWord, toNat_steeringAction, h, wordIgnored]

end Actions

/-- Settles O33: the value by its bytes, and each action by its own equation. -/
theorem steeringWordTaken : Obligations.SteeringWordTaken := by
  intro w r s
  exact ⟨toNat_steeringValue r.lanes, takeSteeringWord_none, takeSteeringWord_keep, takeSteeringWord_raise,
    takeSteeringWord_raise_not_permitted, takeSteeringWord_undefined⟩

end Sys2Proof.Proofs
end

section
/-! What becomes of the event queue: the record that is offered, the law of the queue, and the records that an operation adds
(R140 to R142). -/

namespace Sys2Proof.Machine

-- One proof after another: the memory of a compile grows with the proofs that run at once.
set_option Elab.async false

open Sys2Proof.Claims Sys2Proof.Proofs

/-! ## A record that is offered -/

theorem offer_masked {e : Event} {s : State} (h : s.control.records e.kind = false) : offer e s = s := by
  simp [offer, h]

theorem offer_recorded {e : Event} {s : State} (h : s.control.records e.kind = true) :
    offer e s = { s with events := enqueue s.events e } := by
  simp [offer, h]

theorem enqueue_of_room {q : List Event} (h : q.length ≤ 62) (e : Event) : enqueue q e = q ++ [e] :=
  if_pos (Nat.lt_succ_of_le h)

/-- Where 63 records or more end in OVERFLOW, the loss is counted into it (R142). -/
theorem enqueue_of_overflow {front : List Event} {o : Event} (h : 62 ≤ front.length) (ho : o.kind = .overflow) (e : Event) :
    enqueue (front ++ [o]) e = front ++ [countLoss o] := by
  have hfull : ¬(front ++ [o]).length < Config.ordinaryRecords := by simp [Config.ordinaryRecords]; omega
  simp only [enqueue, if_neg hfull, List.getLast?_concat, if_pos ho, List.dropLast_concat]

/-- Where 63 records do not end in OVERFLOW, the loss leaves a new OVERFLOW record (R142). -/
theorem enqueue_of_first_loss {front : List Event} {o : Event} (h : front.length = 62) (ho : o.kind ≠ .overflow) (e : Event) :
    enqueue (front ++ [o]) e = front ++ [o] ++ [overflowRecord e] := by
  have hlen : (front ++ [o]).length = Config.ordinaryRecords := by simp [Config.ordinaryRecords, h]
  simp only [enqueue, if_neg hlen.not_lt, List.getLast?_concat, if_neg ho, if_pos hlen]

theorem enqueue_ne_nil (q : List Event) (e : Event) : enqueue q e ≠ [] := by
  rcases enqueue_cases q e with ⟨_, h⟩ | ⟨_, _, _, _, _, h⟩ | ⟨_, _, h⟩ | ⟨hlen, _, h⟩ <;> rw [h]
  · simp
  · simp
  · simp
  · exact List.ne_nil_of_length_pos (by omega)

/-! ## The law of the queue -/

/-- `QueueKept`, of the records alone (R141). -/
def QueueLaw (q : List Event) : Prop :=
  q.length ≤ 64 ∧ (q.length = 64 → ∀ e ∈ q.getLast?, e.kind = .overflow)

theorem queueKept_iff (s : State) : QueueKept s ↔ QueueLaw s.events := Iff.rfl

theorem queueLaw_of_length_lt {q : List Event} (h : q.length < 64) : QueueLaw q := ⟨h.le, fun h' => absurd h' h.ne⟩

theorem queueLaw_concat {front : List Event} {o : Event} (h : front.length < 64) (ho : o.kind = .overflow) :
    QueueLaw (front ++ [o]) := by
  refine ⟨by simpa using h, fun _ e he => ?_⟩
  obtain rfl : o = e := by simpa using he
  exact ho

theorem QueueLaw.enqueue {q : List Event} (h : QueueLaw q) (e : Event) : QueueLaw (enqueue q e) := by
  obtain ⟨hle, -⟩ := id h
  rcases enqueue_cases q e with ⟨hlen, heq⟩ | ⟨-, front, last, rfl, hk, heq⟩ | ⟨hlen, -, heq⟩ | ⟨-, -, heq⟩ <;> rw [heq]
  · exact queueLaw_of_length_lt (by simp; omega)
  · exact queueLaw_concat (by simpa using hle) hk
  · exact queueLaw_concat (by omega) rfl
  · exact h

/-- A record that leaves makes room for an ordinary one (R149). -/
theorem QueueLaw.tail {e : Event} {q : List Event} (h : QueueLaw (e :: q)) : QueueLaw q :=
  queueLaw_of_length_lt (Nat.lt_of_succ_le h.1)

/-! ## Records that an operation adds -/

/-- The queue has taken records, one after another, and none has left it. -/
inductive Recorded (q : List Event) : List Event → Prop
  | refl : Recorded q q
  | enqueued {r : List Event} (h : Recorded q r) (e : Event) : Recorded q (enqueue r e)

@[simp] theorem recorded_self (q : List Event) : Recorded q q := .refl

theorem Recorded.queueLaw {q r : List Event} (h : Recorded q r) (hq : QueueLaw q) : QueueLaw r := by
  induction h with
  | refl => exact hq
  | enqueued _ e ih => exact ih.enqueue e

theorem Recorded.ne_nil {q r : List Event} (h : Recorded q r) (hq : q ≠ []) : r ≠ [] := by
  cases h with
  | refl => exact hq
  | enqueued _ e => exact enqueue_ne_nil _ e

/-! ## Operations that record nothing -/

section Silent

variable (d : DomainId) (s : State)

@[simp] theorem events_ite {p : Prop} [Decidable p] {t : State} :
    (if p then s else t).events = if p then s.events else t.events :=
  apply_ite State.events p s t

@[simp] theorem events_countIn (i : EntryIdx) : (countIn i s).events = s.events := by
  obtain ⟨_, _, h⟩ := countIn_frame i s
  rw [h]

@[simp] theorem events_freeEntry (i : EntryIdx) : (freeEntry i s).events = s.events := by
  obtain ⟨_, _, h⟩ := freeEntry_frame i s
  rw [h]

@[simp] theorem events_takePlace (n : InitiatorId) : (takePlace n s).events = s.events := rfl
@[simp] theorem events_givePlace (n : InitiatorId) : (givePlace n s).events = s.events := rfl
@[simp] theorem events_leaveLists (i : EntryIdx) : (leaveLists i s).events = s.events := rfl
@[simp] theorem events_leaveStall : (leaveStall s).events = s.events := rfl

@[simp] theorem events_prompt : (prompt s).events = s.events := by rw [prompt_eq]

@[simp] theorem events_giveNotice (e : Entry) (wake : Bool) : (giveNotice e wake s).events = s.events := by
  rw [giveNotice_eq]

@[simp] theorem events_passEntry (i : EntryIdx) (e : Entry) : (passEntry i e s).events = s.events := by
  obtain ⟨_, _, h⟩ := passEntry_frame i e s
  rw [h]

@[simp] theorem events_joinList (i : EntryIdx) (e : Entry) (r : HoldReason) : (joinList i e r s).events = s.events := by
  obtain ⟨_, _, _, h⟩ := joinList_frame i e r s
  rw [h]

@[simp] theorem events_issueEntry (i : EntryIdx) (e : Entry) : (issueEntry i e s).events = s.events :=
  events_countIn _ i

@[simp] theorem events_reply (status : Status) (bytes : List Byte) : (reply status bytes s).events = s.events := rfl
@[simp] theorem events_actionRefused (status : Status) : (actionRefused status s).events = s.events := rfl
@[simp] theorem events_actionReply (n : Nat) : (actionReply d n s).events = s.events := rfl

@[simp] theorem events_takeCode (c : Command) : (takeCode c s).events = s.events := by rw [takeCode_eq]

@[simp] theorem events_handLower (l : Level) : (handLower d l s).events = s.events := rfl
@[simp] theorem events_handRaise : (handRaise d s).events = s.events := rfl
@[simp] theorem events_reloadIdle : (reloadIdle d s).events = s.events := rfl
@[simp] theorem events_loadDeep : (loadDeep d s).events = s.events := rfl
@[simp] theorem events_enterDraining (l : Level) : (enterDraining d l s).events = s.events := rfl
@[simp] theorem events_setWakePending : (setWakePending d s).events = s.events := rfl
@[simp] theorem events_storeConfig (c : DomainConfig) : (storeConfig d c s).events = s.events := rfl

@[simp] theorem events_enterActive : (enterActive d s).events = s.events := by
  obtain ⟨_, h⟩ := enterActive_frame d s
  rw [h]

@[simp] theorem events_completeDrain : (completeDrain d s).events = s.events := by simp [completeDrain]

@[simp] theorem events_takeUp : (takeUp d s).events = s.events := by
  obtain ⟨_, _, _, _, h⟩ := takeUp_frame d s
  rw [h]

theorem events_actOnNotice (n : Notice) : (actOnNotice n s).events = s.events := by
  unfold actOnNotice
  split <;> simp

theorem events_takeKeep : (takeKeep d s).events = s.events := by
  unfold takeKeep
  split <;> simp

theorem events_takeRaise : (takeRaise d s).events = s.events := by
  unfold takeRaise
  dsimp only
  split <;> simp

theorem events_takeLower (l : Level) : (takeLower d l s).events = s.events := by
  unfold takeLower
  dsimp only
  split
  case h_3 => split <;> simp
  all_goals simp

theorem events_takeAssumption (a : Assumption) : (takeAssumption d a s).events = s.events := by
  cases a <;> simp [takeAssumption]

theorem events_applyLimits : (applyLimits d s).events = s.events := by
  unfold applyLimits
  dsimp only
  split <;> simp

theorem events_applyPin : (applyPin d s).events = s.events := by
  unfold applyPin
  dsimp only
  split
  · rfl
  · split <;> simp
  · split <;> simp

theorem events_takeConfig (c : DomainConfig) : (takeConfig d c s).events = s.events := by
  simp [takeConfig, events_applyPin, events_applyLimits]

theorem events_takeSwitch : (takeSwitch d s).events = s.events := by simp [takeSwitch]

theorem events_takeMode (m : Mode) : (takeMode m s).events = s.events := by
  unfold takeMode
  cases m <;> simp [switchToGoverning, switchToTransparent]

theorem events_storeInitiator (n : InitiatorId) (quota : Nat) (strict : Bool) :
    (storeInitiator n quota strict s).events = s.events := by
  simp [storeInitiator]

end Silent

/-! ## Operations that record -/

section Recording

variable {q : List Event} {s : State} (h : Recorded q s.events)
include h

theorem recorded_offer (e : Event) : Recorded q (offer e s).events := by
  unfold offer
  split
  · exact h.enqueued e
  · exact h

theorem recorded_decline (i : EntryIdx) (c : DeclineCode) : Recorded q (decline i c s).events := by
  unfold decline
  dsimp only
  split
  · split
    · exact recorded_offer (by exact h) _
    · exact h
  · exact h

theorem recorded_declineHeld (c : DeclineCode) (i : EntryIdx) : Recorded q (declineHeld c s i).events := by
  unfold declineHeld
  split
  · exact recorded_decline (by exact h) i c
  · exact h

theorem recorded_declineStalled (c : DeclineCode) (i : EntryIdx) : Recorded q (declineStalled c s i).events := by
  unfold declineStalled
  split
  · exact recorded_decline (by exact h) i c
  · exact h

theorem recorded_foldl {f : State → EntryIdx → State}
    (hf : ∀ t : State, Recorded q t.events → ∀ i, Recorded q (f t i).events) (l : List EntryIdx) :
    Recorded q (l.foldl f s).events :=
  List.foldlRecOn l f h fun t ht i _ => hf t ht i

theorem recorded_massDecline (d : DomainId) (sel selStalled : Entry → Bool) (c : DeclineCode) :
    Recorded q (massDecline d sel selStalled c s).events := by
  have key := recorded_foldl (recorded_foldl h (fun _ ht => recorded_declineHeld ht c) (selectedHeld d sel s))
    (fun _ ht => recorded_declineStalled ht c) (selectedStalled d selStalled s)
  simpa [massDecline] using key

theorem recorded_takeSteeringWord (w : WindowId) (r : Request) : Recorded q (takeSteeringWord w r s).events := by
  unfold takeSteeringWord
  dsimp only
  split
  · exact h
  · exact h
  · split
    · exact h
    · exact recorded_offer h _
  · exact recorded_offer h _

theorem recorded_holdNew (i : EntryIdx) (e : Entry) (r : HoldReason) : Recorded q (holdNew i e r s).events := by
  unfold holdNew
  split
  · simpa using h
  · split
    · exact recorded_decline (by exact h) i .poolFull
    · exact recorded_offer (by exact h) _

theorem recorded_placeNew (i : EntryIdx) (e : Entry) (x : Decision) : Recorded q (placeNew i e x s).events := by
  cases x with
  | pass => simpa [placeNew] using h
  | hold r => exact recorded_holdNew h i e r
  | decline c => exact recorded_decline (by exact h) i c

theorem recorded_acceptAt (i : EntryIdx) (r : Request) : Recorded q (acceptAt i r s).events := by
  unfold acceptAt
  refine recorded_placeNew ?_ ..
  split
  · exact recorded_takeSteeringWord (by exact h) _ r
  · exact h

theorem recorded_reExamine (i : EntryIdx) (e : Entry) : Recorded q (reExamine i e s).events := by
  unfold reExamine
  split
  · simpa using h
  · simpa using h
  · exact recorded_declineStalled h _ i

theorem recorded_matchResponse (r : MemResponse) : Recorded q (matchResponse r s).events := by
  unfold matchResponse
  split
  · split
    · exact h
    split
    · simpa using h
    · exact recorded_offer h _
  · exact recorded_offer h _

theorem recorded_takeRaiseClaim (c : Claim) : Recorded q (takeRaiseClaim c s).events := by
  unfold takeRaiseClaim
  dsimp only
  split
  · exact recorded_offer h _
  · exact h
  · split
    · exact recorded_offer h _
    · simpa using h

variable (d : DomainId)

theorem recorded_abandonCommand : Recorded q (abandonCommand d s).events :=
  recorded_offer (recorded_massDecline (by exact h) d everyEntry everyEntry .domainFault) _

theorem recorded_loseContents : Recorded q (loseContents d s).events :=
  recorded_massDecline (by exact h) d guardedEntry guardedEntry .contentLost

theorem recorded_doneLower : Recorded q (doneLower d s).events := by
  simp only [doneLower, events_ite, events_handRaise, events_loadDeep, ite_self]
  split
  · exact recorded_loseContents (recorded_offer (by exact h) _) d
  · exact recorded_offer (by exact h) _

theorem recorded_deliver (o : AckOutcome) (k : PowerCommand) : Recorded q (deliver o k d s).events := by
  have hup : Recorded q (enterActive d s).events := by simpa using h
  cases k <;> cases o
  · exact recorded_doneLower h d
  · exact recorded_offer hup _
  · exact recorded_offer hup _
  · exact recorded_offer (recorded_massDecline (by exact h) d everyEntry noEntry .wakeRefused) _

end Recording

theorem events_resetPort (s : State) : ∃ e, (resetPort s).events = (offer e s).events := by
  rw [resetPort_eq]
  generalize emptied s = u
  exact ⟨_, rfl⟩

/-! ## Every command -/

section Commands

variable {s t u : State}

theorem recorded_whileRunning (hu : Recorded s.events u.events) (ht : whileRunning s u = .next t) :
    Recorded s.events t.events := by
  obtain rfl := Host.Outcome.next.inj ht
  split
  · exact .refl
  · exact hu

theorem recorded_ite {p : Prop} [Decidable p] (hu : Recorded s.events u.events) :
    Recorded s.events (if p then u else s).events := by
  split
  · exact hu
  · exact .refl

theorem recorded_inFrame {c : Option Command} (hu : Recorded s.events u.events) (ht : inFrame c s u = .next t) :
    Recorded s.events t.events :=
  Host.Outcome.next.inj ht ▸ recorded_ite hu

theorem recorded_execAcceptance {r : Request} (ht : execAcceptance r s = .next t) : Recorded s.events t.events := by
  refine recorded_whileRunning (recorded_ite ?_) ht
  split
  · exact recorded_acceptAt .refl _ r
  · exact .refl

theorem recorded_execArrivalNotice {d : DomainId} (ht : execArrivalNotice d s = .next t) : Recorded s.events t.events := by
  refine recorded_whileRunning ?_ ht
  split <;> simp [events_actOnNotice]

theorem recorded_execIssue (ht : execIssue s = .next t) : Recorded s.events t.events := by
  refine recorded_whileRunning ?_ ht
  split
  · split <;> simp [issuePassing, issueHeld]
  · exact .refl

theorem recorded_execDownstreamResponse {r : MemResponse} (ht : execDownstreamResponse r s = .next t) :
    Recorded s.events t.events := by
  refine recorded_whileRunning ?_ ht
  split
  · exact .refl
  · exact recorded_matchResponse .refl r

theorem recorded_execForwarding (ht : execForwarding s = .next t) : Recorded s.events t.events := by
  refine recorded_whileRunning (recorded_ite ?_) ht
  split
  · split <;> simp [forwardEntry]
  · exact .refl

theorem recorded_execDeclineSend (ht : execDeclineSend s = .next t) : Recorded s.events t.events := by
  refine recorded_whileRunning (recorded_ite ?_) ht
  split
  · split
    · split <;> simp [sendDecline]
    · exact .refl
  · exact .refl

theorem recorded_execReExamination (ht : execReExamination s = .next t) : Recorded s.events t.events := by
  refine recorded_whileRunning ?_ ht
  split
  · split
    · exact recorded_ite (recorded_reExamine .refl _ _)
    · exact .refl
  · exact .refl

theorem recorded_execHoldDeadlineExpiry {i : EntryIdx} (ht : execHoldDeadlineExpiry i s = .next t) :
    Recorded s.events t.events := by
  refine recorded_whileRunning ?_ ht
  split
  · have key := recorded_declineHeld (s := s) .refl .holdTimeout i
    exact recorded_ite (by simpa using key)
  · exact .refl

theorem recorded_execStallDeadlineExpiry (ht : execStallDeadlineExpiry s = .next t) : Recorded s.events t.events := by
  refine recorded_whileRunning ?_ ht
  split
  · split
    · exact recorded_ite (recorded_declineStalled .refl .holdTimeout _)
    · exact .refl
  · exact .refl

theorem recorded_execCommandTransfer (ht : execCommandTransfer s = .next t) : Recorded s.events t.events := by
  refine recorded_whileRunning ?_ ht
  split
  · split <;> exact .refl
  · exact .refl

theorem recorded_execAcknowledge {o : AckOutcome} {d : DomainId} (ht : execAcknowledge o d s = .next t) :
    Recorded s.events t.events := by
  refine recorded_whileRunning ?_ ht
  split
  · exact recorded_deliver (by exact .refl) d o _
  · exact recorded_offer .refl _
  · exact recorded_offer .refl _

theorem recorded_execKeepClaim {d : DomainId} (ht : execKeepClaim d s = .next t) : Recorded s.events t.events := by
  refine recorded_whileRunning ?_ ht
  split <;> simp [events_takeKeep, State.dropClaim]

theorem recorded_execRaiseClaim {d : DomainId} (ht : execRaiseClaim d s = .next t) : Recorded s.events t.events := by
  refine recorded_whileRunning ?_ ht
  split
  · split
    · exact recorded_takeRaiseClaim (by exact .refl) _
    · exact .refl
  · exact .refl

theorem recorded_execPortReset (ht : execPortReset s = .next t) : Recorded s.events t.events := by
  obtain rfl := Host.Outcome.next.inj ht
  obtain ⟨e, hreset⟩ := events_resetPort s
  simp only [events_ite, hreset]
  split
  · exact .refl
  split
  · exact .refl
  · exact recorded_offer .refl e

theorem recorded_execSetMode {b : Byte} (ht : execSetMode b s = .next t) : Recorded s.events t.events := by
  refine recorded_inFrame ?_ ht
  split <;> simp [events_takeMode]

theorem recorded_execWriteWindow {b : Byte} {r : Vector Byte 12} (ht : execWriteWindow b r s = .next t) :
    Recorded s.events t.events := by
  refine recorded_inFrame ?_ ht
  split
  · split <;> exact .refl
  · exact .refl

theorem recorded_execWriteDomain {b : Byte} {r : Vector Byte 8} (ht : execWriteDomain b r s = .next t) :
    Recorded s.events t.events := by
  refine recorded_inFrame ?_ ht
  split
  · split <;> simp [events_takeConfig]
  · exact .refl

theorem recorded_execRaiseAction {b a x : Byte} (ht : execRaiseAction b a x s = .next t) :
    Recorded s.events t.events := by
  refine recorded_inFrame ?_ ht
  split <;> simp [events_takeRaise]

theorem recorded_execLowerAction {b l : Byte} (ht : execLowerAction b l s = .next t) : Recorded s.events t.events := by
  refine recorded_inFrame ?_ ht
  split
  · split <;> simp [events_takeLower]
  · exact .refl

theorem recorded_execClearFault {b a : Byte} (ht : execClearFault b a s = .next t) : Recorded s.events t.events := by
  refine recorded_inFrame ?_ ht
  split
  · split <;> simp [events_takeAssumption]
  · exact .refl

theorem recorded_execFlush {b x : Byte} (ht : execFlush b x s = .next t) : Recorded s.events t.events := by
  refine recorded_inFrame ?_ ht
  split
  · have key := recorded_massDecline (s := s) .refl
    simpa [takeFlush] using key ..
  · exact .refl

theorem recorded_execWriteInitiator {b q f : Byte} (ht : execWriteInitiator b q f s = .next t) :
    Recorded s.events t.events := by
  refine recorded_inFrame ?_ ht
  split <;> simp [events_storeInitiator]

theorem recorded_execBadCommand {c : Byte} (ht : execBadCommand c s = .next t) : Recorded s.events t.events := by
  refine recorded_inFrame ?_ ht
  split <;> simp

/-- Records leave the queue at RECORD_REMOVAL and at the edges of RESETN alone (R149, R154). -/
theorem exec_recorded {c : Instr} (ht : exec c s = .next t) (hremoval : c ≠ .recordRemoval)
    (hreset : c ≠ .powerOnReset) (hrelease : c ≠ .powerOnResetRelease) : Recorded s.events t.events := by
  cases c with
  | acceptance r => exact recorded_execAcceptance ht
  | arrivalNotice d => exact recorded_execArrivalNotice ht
  | issue => exact recorded_execIssue ht
  | downstreamResponse r => exact recorded_execDownstreamResponse ht
  | forwarding => exact recorded_execForwarding ht
  | declineSend => exact recorded_execDeclineSend ht
  | reExamination => exact recorded_execReExamination ht
  | holdDeadlineExpiry i => exact recorded_execHoldDeadlineExpiry ht
  | stallDeadlineExpiry => exact recorded_execStallDeadlineExpiry ht
  | idleTimerExpiry d => exact recorded_whileRunning (recorded_ite (by simp)) ht
  | drainCompletion d => exact recorded_whileRunning (by simp) ht
  | deepTimerExpiry d => exact recorded_whileRunning (recorded_ite (by simp)) ht
  | ackTimerExpiry d => exact recorded_whileRunning (recorded_ite (recorded_abandonCommand .refl d)) ht
  | commandTransfer => exact recorded_execCommandTransfer ht
  | acknowledge o d => exact recorded_execAcknowledge ht
  | keepClaim d => exact recorded_execKeepClaim ht
  | raiseClaim d => exact recorded_execRaiseClaim ht
  | portReset => exact recorded_execPortReset ht
  | portResetRelease =>
    obtain rfl := Host.Outcome.next.inj ht
    exact .refl
  | governingSwitchTaken d => exact recorded_whileRunning (recorded_ite (by simp [events_takeSwitch])) ht
  | readStatus => exact recorded_inFrame (by simp) ht
  | setMode m => exact recorded_execSetMode ht
  | writeWindow w r => exact recorded_execWriteWindow ht
  | writeDomain d r => exact recorded_execWriteDomain ht
  | raiseAction d a x => exact recorded_execRaiseAction (x := x) ht
  | lowerAction d l => exact recorded_execLowerAction ht
  | clearFault d a => exact recorded_execClearFault ht
  | flush d x => exact recorded_execFlush (x := x) ht
  | readWindow _ | readDomain _ | validate _ _ | listHeld _ | readInitiator _ | popEvents _ | setEventControl _ _ _ =>
    refine recorded_inFrame ?_ ht
    split <;> exact .refl
  | writeInitiator n q f => exact recorded_execWriteInitiator ht
  | badCommand code => exact recorded_execBadCommand ht
  | frameAbort _ | frameEnd | chipSelectFalling | ignoringEnd =>
    obtain rfl := Host.Outcome.next.inj ht
    exact recorded_ite .refl
  | timebaseAdvance => exact recorded_whileRunning (u := { s with timebase := s.timebase + 1 }) .refl ht
  | recordRemoval => exact absurd rfl hremoval
  | powerOnReset => exact absurd rfl hreset
  | powerOnResetRelease => exact absurd rfl hrelease

end Commands
end Sys2Proof.Machine
end

section
/-! The event queue and ALERT: what the queue does with a record, POP EVENTS and the removal of its records, and the changes of
ALERT (R140 to R143, R149, R150, R152, R175, R176). -/

namespace Sys2Proof.Proofs

-- One proof after another: the memory of a compile grows with the proofs that run at once.
set_option Elab.async false

open Sys2Proof.Machine Sys2Proof.Claims

/-! ## The rows that take records away -/

section Removal

variable {s : State}

theorem exec_powerOnReset_running (h : s.inReset = false) : exec .powerOnReset s = .next (powerOn true s) := by
  simp [exec_powerOnReset_def, execPowerOnReset, h]

theorem exec_powerOnReset_inReset (h : s.inReset = true) : exec .powerOnReset s = .next s := by
  simp [exec_powerOnReset_def, execPowerOnReset, h]

theorem exec_powerOnResetRelease_running (h : s.inReset = false) : exec .powerOnResetRelease s = .next s := by
  simp [exec_powerOnResetRelease_def, execPowerOnResetRelease, h]

theorem exec_powerOnResetRelease_inReset (h : s.inReset = true) : exec .powerOnResetRelease s = .next (powerOn false s) := by
  simp [exec_powerOnResetRelease_def, execPowerOnResetRelease, h]

/-- The head of the queue has left it and stands in the result of the frame (R149). -/
def headRemoved (e : Event) (rest : List Event) (s : State) : State :=
  { s with
    events := rest, port := { s.port with result := s.port.result ++ e.bytes, popLeft := s.port.popLeft - 1 } }

theorem exec_recordRemoval {e : Event} {rest : List Event} (hp : s.port.phase = .result) (hn : 0 < s.port.popLeft)
    (he : s.events = e :: rest) : exec .recordRemoval s = .next (headRemoved e rest s) := by
  change execRecordRemoval s = _
  simp only [execRecordRemoval, hp, hn, he, and_self, if_true, headRemoved]

theorem exec_recordRemoval_idle (h : s.port.phase ≠ .result ∨ s.port.popLeft = 0 ∨ s.events = []) :
    exec .recordRemoval s = .next s := by
  change execRecordRemoval s = _
  rw [execRecordRemoval]
  rcases h with hp | hn | he
  · rw [if_neg fun hc => hp hc.1]
  · rw [if_neg fun hc => hc.2.ne' hn]
  · rw [he]
    split <;> rfl

/-- A record is removed whole, or nothing happens. -/
theorem exec_recordRemoval_cases (s : State) :
    exec .recordRemoval s = .next s ∨
    ∃ e rest, s.events = e :: rest ∧ exec .recordRemoval s = .next (headRemoved e rest s) := by
  by_cases hp : s.port.phase = .result
  · rcases Nat.eq_zero_or_pos s.port.popLeft with hn | hn
    · exact .inl (exec_recordRemoval_idle (.inr (.inl hn)))
    · cases he : s.events with
      | nil => exact .inl (exec_recordRemoval_idle (.inr (.inr he)))
      | cons e rest => exact .inr ⟨e, rest, rfl, exec_recordRemoval hp hn he⟩
  · exact .inl (exec_recordRemoval_idle (.inl hp))

/-- What the frame shifts out does not change as a record leaves the queue (R150). -/
theorem resultBytes_headRemoved {e : Event} {rest : List Event} (hn : 0 < s.port.popLeft) (he : s.events = e :: rest) :
    (headRemoved e rest s).resultBytes = s.resultBytes := by
  obtain ⟨n, hn⟩ := Nat.exists_eq_add_one.mpr hn
  simp [State.resultBytes, headRemoved, he, hn]

end Removal

/-! ## The law of the queue -/

theorem exec_queueLaw {c : Instr} {s t : State} (h : QueueLaw s.events) (ht : exec c s = .next t) : QueueLaw t.events := by
  cases c with
  | recordRemoval =>
    rcases exec_recordRemoval_cases s with hex | ⟨e, rest, he, hex⟩ <;>
      obtain rfl := Host.Outcome.next.inj (hex.symm.trans ht)
    · exact h
    · rw [he] at h
      exact h.tail
  | powerOnReset =>
    obtain rfl := Host.Outcome.next.inj ht
    split
    · exact h
    · exact queueLaw_of_length_lt (q := []) (by decide)
  | powerOnResetRelease =>
    obtain rfl := Host.Outcome.next.inj ht
    split
    · exact queueLaw_of_length_lt (q := []) (by decide)
    · exact h
  | _ => exact (exec_recorded ht nofun nofun nofun).queueLaw h

/-- Settles O53: a record offered keeps the law, a record removed makes room, and an edge of RESETN empties the queue. -/
theorem stepKeepsQueueLaw : Obligations.StepKeepsQueueLaw := by
  intro s t h hstep
  unfold step at hstep
  split at hstep
  · exact Host.Outcome.next.inj hstep ▸ h
  · next rest _ =>
    rw [queueKept_iff] at h ⊢
    exact exec_queueLaw (s := { s with pending := rest }) h hstep

/-! ## The record that is offered -/

theorem overflowRecord_eq (e : Event) :
    overflowRecord e = { plain .overflow e.timestamp with detail := e.kind.value.setWidth 16, value := 1 } := rfl

/-- Settles O7: by the mask, the room, and the newest record. -/
theorem offeredRecordIsTaken : Obligations.OfferedRecordIsTaken := by
  refine ⟨fun c k => by cases k <;> rfl, fun e s => ⟨offer_masked, fun hr => ⟨fun hroom => ?_, ?_, ?_⟩⟩⟩
  · rw [offer_recorded hr, enqueue_of_room hroom]
  · intro front o hq hfull ho
    rw [offer_recorded hr, hq, enqueue_of_overflow hfull ho]
    rfl
  · intro front o hq hfull ho
    rw [offer_recorded hr, hq, enqueue_of_first_loss hfull ho, overflowRecord_eq]

/-! ## POP EVENTS -/

theorem exec_popEvents_refused {k : Byte} {s : State} (hf : s.awaits (some .popEvents) = true)
    (hk : k.toNat = 0 ∨ 64 < k.toNat) : exec (.popEvents k) s = .next (answered [0x03] s) := by
  change execPopEvents k s = _
  have hbad : k = 0 ∨ Config.queueRecords < k.toNat := hk.imp_left BitVec.eq_of_toNat_eq
  rw [execPopEvents, inFrame_open hf, if_pos hbad]
  rfl

/-- POP EVENTS has fixed the number of its records (R149). -/
def popping (n : Nat) (s : State) : State :=
  { s with
    port := { phase := .result, aborted := s.port.aborted, popLeft := n, result := [0x00, BitVec.ofNat 8 n] } }

theorem exec_popEvents {k : Byte} {s : State} (hf : s.awaits (some .popEvents) = true) (hpos : 1 ≤ k.toNat)
    (hle : k.toNat ≤ 64) : exec (.popEvents k) s = .next (popping (min k.toNat s.events.length) s) := by
  change execPopEvents k s = _
  have hgood : ¬(k = 0 ∨ Config.queueRecords < k.toNat) := by
    rintro (rfl | hk)
    · exact absurd hpos (by decide)
    · exact absurd hk hle.not_gt
  rw [execPopEvents, inFrame_open hf, if_neg hgood]
  rfl

/-- Settles O25: what POP EVENTS fixes, and each removal with the bytes it leaves. -/
theorem popEventsShiftsRecords : Obligations.PopEventsShiftsRecords := by
  refine ⟨fun s hf => ⟨fun k hk => exec_popEvents_refused hf hk, fun k hpos hle => ?_⟩, fun s =>
    ⟨fun e rest hp hn he => ?_, exec_recordRemoval_idle⟩⟩
  · exact ⟨_, exec_popEvents hf hpos hle, rfl, rfl⟩
  · exact ⟨_, exec_recordRemoval hp hn he, rfl, resultBytes_headRemoved hn he⟩

/-! ## ALERT -/

theorem alert_iff (s : State) :
    s.alert = true ↔ s.inReset = false ∧ s.control.alertEnable = true ∧ s.events ≠ [] := by
  simp [State.alert, and_assoc]

theorem alert_of_inReset {s : State} (h : s.inReset = true) : s.alert = false := by simp [State.alert, h]

theorem alert_of_no_events {s : State} (h : s.events = []) : s.alert = false := by simp [State.alert, h]

/-- ALERT depends on the queue only by its being empty (R152). -/
theorem alert_congr {s t : State} (hr : t.inReset = s.inReset) (hc : t.control = s.control)
    (he : t.events = [] ↔ s.events = []) : t.alert = s.alert := by
  rw [Bool.eq_iff_iff, alert_iff, alert_iff, hr, hc, ne_eq, ne_eq, he]

theorem alert_offer {e : Event} {s : State} (h : s.events ≠ [] ∨ s.control.records e.kind = false) :
    (offer e s).alert = s.alert := by
  cases hm : s.control.records e.kind with
  | false => rw [offer_masked hm]
  | true =>
    have hne : s.events ≠ [] := h.resolve_right (by simp [hm])
    rw [offer_recorded hm]
    exact alert_congr rfl rfl (iff_of_false (enqueue_ne_nil _ e) hne)

theorem alert_offer_first {e : Event} {s : State} (hr : s.inReset = false) (ha : s.control.alertEnable = true)
    (hm : s.control.records e.kind = true) : (offer e s).alert = true := by
  rw [offer_recorded hm, alert_iff]
  exact ⟨hr, ha, enqueue_ne_nil _ e⟩

/-- The four controls have been stored (R176). -/
def controlled (h l f : Byte) (p : Policy) (s : State) : State :=
  { s with
    control := { mask := h ++ l, alertEnable := f.getLsbD 0, globalReport := f.getLsbD 1, openPolicy := p } }

theorem exec_setEventControl {h l f : Byte} {s : State} (hf : s.awaits (some .setEventControl) = true) {p : Policy}
    (hp : policyOf? (f.extractLsb' 2 2) = some p) :
    exec (.setEventControl h l f) s = .next (answered [0x00] (controlled h l f p s)) := by
  change execSetEventControl h l f s = _
  rw [execSetEventControl, inFrame_open hf, hp]
  rfl

theorem exec_setEventControl_refused {h l f : Byte} {s : State} (hf : s.awaits (some .setEventControl) = true)
    (hp : policyOf? (f.extractLsb' 2 2) = none) :
    exec (.setEventControl h l f) s = .next (answered [0x03] s) := by
  change execSetEventControl h l f s = _
  rw [execSetEventControl, inFrame_open hf, hp]
  rfl

theorem exec_setEventControl_idle {h l f : Byte} {s : State} (hf : s.awaits (some .setEventControl) = false) :
    exec (.setEventControl h l f) s = .next s :=
  inFrame_closed hf

theorem exists_policyOf? {f : Byte} (h : f.toNat / 4 % 4 < 2) : ∃ p, policyOf? (f.extractLsb' 2 2) = some p := by
  rw [← Option.isSome_iff_exists, Option.isSome_iff_ne_none, ne_eq, policyOf?_eq_none_iff, toNat_extract_two]
  exact h.not_ge

theorem alert_controlled {h l f : Byte} {p : Policy} {s : State} (hr : s.inReset = false) :
    (answered [0x00] (controlled h l f p s)).alert = true ↔ s.events ≠ [] ∧ f.getLsbD 0 = true := by
  rw [alert_iff, and_comm (a := s.events ≠ [])]
  exact and_iff_right hr

theorem exec_powerOnReset_alert (s : State) : ∃ t, exec .powerOnReset s = .next t ∧ t.alert = false := by
  cases hr : s.inReset with
  | false => exact ⟨_, exec_powerOnReset_running hr, alert_of_inReset rfl⟩
  | true => exact ⟨_, exec_powerOnReset_inReset hr, alert_of_inReset hr⟩

theorem exec_readStatus {s : State} (hf : s.awaits (some .readStatus) = true) :
    ∃ t, exec .readStatus s = .next t ∧ t.resultBytes = 0x00 :: statusBytes s := by
  refine ⟨_, inFrame_open hf, ?_⟩
  exact List.append_nil _

/-! ### The changes of ALERT -/

section Changes

variable {s t : State} (hne : t.alert ≠ s.alert)
include hne

theorem alert_change_recordRemoval (ht : exec .recordRemoval s = .next t) :
    s.alert = true ∧ ∃ e, s.events = [e] ∧ t.events = [] := by
  rcases exec_recordRemoval_cases s with hex | ⟨e, rest, he, hex⟩ <;>
    obtain rfl := Host.Outcome.next.inj (hex.symm.trans ht)
  · exact absurd rfl hne
  · cases rest with
    | nil =>
      have hoff : (headRemoved e [] s).alert = false := alert_of_no_events rfl
      exact ⟨by simpa [hoff] using hne, e, he, rfl⟩
    | cons f rest =>
      have hs : s.events ≠ [] := by simp [he]
      exact (hne (alert_congr rfl rfl (iff_of_false (List.cons_ne_nil f rest) hs))).elim

theorem alert_change_setEventControl {h l f : Byte} (ht : exec (.setEventControl h l f) s = .next t) :
    s.events ≠ [] ∧ t.alert = f.getLsbD 0 := by
  cases hf : s.awaits (some .setEventControl) with
  | false =>
    obtain rfl := Host.Outcome.next.inj ((exec_setEventControl_idle hf).symm.trans ht)
    exact absurd rfl hne
  | true =>
    cases hp : policyOf? (f.extractLsb' 2 2) with
    | none =>
      obtain rfl := Host.Outcome.next.inj ((exec_setEventControl_refused hf hp).symm.trans ht)
      exact absurd (alert_congr rfl rfl Iff.rfl) hne
    | some p =>
      obtain rfl := Host.Outcome.next.inj ((exec_setEventControl hf hp).symm.trans ht)
      have hev : s.events ≠ [] := fun he =>
        hne ((alert_of_no_events (s := answered [0x00] (controlled h l f p s)) he).trans (alert_of_no_events he).symm)
      refine ⟨hev, ?_⟩
      rw [Bool.eq_iff_iff, alert_controlled ((awaits_iff s _).mp hf).1]
      exact and_iff_right hev

/-- While RESETN is active nothing is asserted, and its release leaves an empty queue (R154). -/
theorem not_alert_change_powerOnResetRelease (ht : exec .powerOnResetRelease s = .next t) : False := by
  cases hr : s.inReset with
  | false =>
    obtain rfl := Host.Outcome.next.inj ((exec_powerOnResetRelease_running hr).symm.trans ht)
    exact hne rfl
  | true =>
    obtain rfl := Host.Outcome.next.inj ((exec_powerOnResetRelease_inReset hr).symm.trans ht)
    exact hne ((alert_of_no_events rfl).trans (alert_of_inReset hr).symm)

/-- Where only records are added, ALERT changes at the first (R152). -/
theorem alert_change_recorded (hr : t.inReset = s.inReset) (hc : t.control = s.control)
    (h : Recorded s.events t.events) :
    s.alert = false ∧ s.events = [] ∧ t.events ≠ [] ∧ s.control.alertEnable = true := by
  have hnil : s.events = [] := by
    by_contra hs
    exact hne (alert_congr hr hc (iff_of_false (h.ne_nil hs) hs))
  have hoff : s.alert = false := alert_of_no_events hnil
  obtain ⟨-, hen, hev⟩ := (alert_iff t).mp (by simpa [hoff] using hne)
  exact ⟨hoff, hnil, hev, hc ▸ hen⟩

end Changes

/-- The table of R152, of every command. -/
theorem alert_change {c : Instr} {s t : State} (ht : exec c s = .next t) (hne : t.alert ≠ s.alert) :
    (s.alert = false ∧ s.events = [] ∧ t.events ≠ [] ∧ s.control.alertEnable = true) ∨
    (c = .recordRemoval ∧ s.alert = true ∧ ∃ e, s.events = [e] ∧ t.events = []) ∨
    (∃ h l f, c = .setEventControl h l f ∧ s.events ≠ [] ∧ t.alert = f.getLsbD 0) ∨
    (c = .powerOnReset ∧ t.alert = false) := by
  cases c with
  | recordRemoval => exact .inr (.inl ⟨rfl, alert_change_recordRemoval hne ht⟩)
  | setEventControl h l f => exact .inr (.inr (.inl ⟨h, l, f, rfl, alert_change_setEventControl hne ht⟩))
  | powerOnReset =>
    obtain ⟨u, hu, hoff⟩ := exec_powerOnReset_alert s
    obtain rfl := Host.Outcome.next.inj (hu.symm.trans ht)
    exact .inr (.inr (.inr ⟨rfl, hoff⟩))
  | powerOnResetRelease => exact (not_alert_change_powerOnResetRelease hne ht).elim
  | _ =>
    obtain ⟨-, hr, -, -, -, hc, -⟩ := onlyTheirCommandsChangeSettings _ s t ht nofun nofun
    exact .inl (alert_change_recorded hne hr (hc nofun) (exec_recorded ht nofun nofun nofun))

/-- Settles O8: ALERT by the queue and the enable, and its changes command by command. -/
theorem alertFollowsQueue : Obligations.AlertFollowsQueue := by
  intro s
  refine ⟨fun hr => ?_, alert_of_inReset, fun e hr _ ha hm => alert_offer_first hr ha hm, fun e h => alert_offer h,
    fun e he hp hn => ?_, fun h l f hf hpol => ?_, fun hf => ?_, exec_powerOnReset_alert s, fun c t => alert_change⟩
  · rw [alert_iff, and_comm (a := s.events ≠ [])]
    exact and_iff_right hr
  · exact ⟨_, exec_recordRemoval hp hn he, alert_of_no_events rfl⟩
  · obtain ⟨p, hp⟩ := exists_policyOf? hpol
    exact ⟨_, exec_setEventControl hf hp, alert_controlled ((awaits_iff s _).mp hf).1⟩
  · obtain ⟨t, ht, hbytes⟩ := exec_readStatus hf
    exact ⟨t, ht, by rw [hbytes]; rfl⟩

end Sys2Proof.Proofs
end

section
/-! The bytes of a management frame and the command they spell, both ways, and the fields of the signal groups (R157, R160,
R179, R184, R187, R188). -/

namespace Sys2Proof.Proofs

-- One proof after another: the memory of a compile grows with the proofs that run at once.
set_option Elab.async false

open Sys2Proof.Machine Sys2Proof.Claims

/-! ## Codes and argument bytes -/

/-- A code names the command whose code it is (R187). -/
theorem commandOf?_eq_some_iff (code : Byte) (c : Command) : commandOf? code = some c ↔ code = c.code := by
  cases c <;> revert code <;> decide

@[simp] theorem commandOf?_code (c : Command) : commandOf? c.code = some c :=
  (commandOf?_eq_some_iff _ c).mpr rfl

theorem frameCommand_of_command (c : Command) (arguments : List Byte) :
    frameCommand (c.code :: arguments) = c.withArguments arguments := by
  simp only [frameCommand, commandOf?_code]

theorem frameCommand_of_unknown {code : Byte} (h : commandOf? code = none) (arguments : List Byte) :
    frameCommand (code :: arguments) = if arguments.isEmpty then some (.badCommand code) else none := by
  simp only [frameCommand, h]

theorem withArguments_writeWindow (w : Byte) (r : Vector Byte 12) :
    Command.writeWindow.withArguments (w :: r.toList) = some (.writeWindow w r) := by
  obtain ⟨⟨l⟩, hl⟩ := r
  match l, hl with
  | [_, _, _, _, _, _, _, _, _, _, _, _], _ => rfl

theorem withArguments_writeDomain (d : Byte) (r : Vector Byte 8) :
    Command.writeDomain.withArguments (d :: r.toList) = some (.writeDomain d r) := by
  obtain ⟨⟨l⟩, hl⟩ := r
  match l, hl with
  | [_, _, _, _, _, _, _, _], _ => rfl

/-! ## DOMAIN ACTION -/

/-- An action byte that is no other action's is carried by RAISE_ACTION (log 9). -/
theorem actionOf_raise (d x : Byte) {a : Byte} (h : isOtherAction a = false) : actionOf d a x = .raiseAction d a x := by
  rw [Bool.eq_false_iff, ne_eq, isOtherAction_iff] at h
  unfold actionOf
  split
  case h_5 => rfl
  all_goals omega

/-- An action byte names the row that its frame is of, and is read back from it (R184). -/
theorem actionOf_spelled (d a x : Byte) :
    (actionOf d a x).wellFormed = true ∧ (actionOf d a x).frame = some [Command.domainAction.code, d, a, x] := by
  cases ho : isOtherAction a with
  | false => rw [actionOf_raise d x ho]; simp [Instr.wellFormed, Instr.frame, ho]
  | true =>
    obtain ⟨hlo, hhi⟩ := (isOtherAction_iff a).mp ho
    have ha : a.toNat = 2 ∨ a.toNat = 3 ∨ a.toNat = 4 ∨ a.toNat = 5 := by omega
    rcases ha with h | h | h | h <;> obtain rfl := byte_eq_of_toNat h <;> exact ⟨rfl, rfl⟩

/-! ## From the bytes to the command -/

/-- A command that argument bytes spell has those bytes in its frame, and they are as many as it takes (R187). -/
theorem spelled_of_withArguments {c : Command} {arguments : List Byte} {i : Instr}
    (h : c.withArguments arguments = some i) :
    i.wellFormed = true ∧ i.frame = some (c.code :: arguments) ∧ arguments.length = c.arguments := by
  unfold Command.withArguments at h
  split at h
  case h_7 d a x =>
    cases h
    obtain ⟨hwf, hframe⟩ := actionOf_spelled d a x
    exact ⟨hwf, hframe, rfl⟩
  all_goals cases h <;> exact ⟨rfl, rfl, rfl⟩

/-- So many bytes as a command takes spell it, whatever they are (R187). -/
theorem withArguments_isSome_iff (c : Command) (arguments : List Byte) :
    (c.withArguments arguments).isSome = true ↔ arguments.length = c.arguments := by
  refine ⟨fun h => ?_, fun h => ?_⟩
  · obtain ⟨i, hi⟩ := Option.isSome_iff_exists.mp h
    obtain ⟨-, -, hlength⟩ := spelled_of_withArguments hi
    exact hlength
  · cases c
    case readStatus => obtain rfl := List.length_eq_zero_iff.mp h; rfl
    case writeWindow =>
      obtain ⟨w, r, rfl⟩ := List.exists_cons_of_length_eq_add_one h
      exact Option.isSome_of_eq_some (withArguments_writeWindow w ⟨r.toArray, Nat.succ.inj h⟩)
    case writeDomain =>
      obtain ⟨d, r, rfl⟩ := List.exists_cons_of_length_eq_add_one h
      exact Option.isSome_of_eq_some (withArguments_writeDomain d ⟨r.toArray, Nat.succ.inj h⟩)
    case domainAction => obtain ⟨_, _, _, rfl⟩ := List.length_eq_three.mp h; rfl
    case writeInitiator => obtain ⟨_, _, _, rfl⟩ := List.length_eq_three.mp h; rfl
    case setEventControl => obtain ⟨_, _, _, rfl⟩ := List.length_eq_three.mp h; rfl
    all_goals obtain ⟨_, rfl⟩ := List.length_eq_one_iff.mp h; rfl

theorem spelled_of_frameCommand {bytes : List Byte} {i : Instr} (h : frameCommand bytes = some i) :
    i.wellFormed = true ∧ i.frame = some bytes := by
  cases bytes with
  | nil => cases h
  | cons code arguments =>
    cases hc : commandOf? code with
    | some c =>
      obtain rfl := (commandOf?_eq_some_iff code c).mp hc
      rw [frameCommand_of_command] at h
      obtain ⟨hwf, hframe, -⟩ := spelled_of_withArguments h
      exact ⟨hwf, hframe⟩
    | none =>
      rw [frameCommand_of_unknown hc, Option.ite_none_right_eq_some, List.isEmpty_iff] at h
      obtain ⟨rfl, h⟩ := h
      cases h
      simp [Instr.wellFormed, Instr.frame, commandArguments, hc]

theorem frameCommand_isSome_iff (code : Byte) (arguments : List Byte) :
    (frameCommand (code :: arguments)).isSome = true ↔ arguments.length = (commandArguments code).getD 0 := by
  cases hc : commandOf? code with
  | some c =>
    obtain rfl := (commandOf?_eq_some_iff code c).mp hc
    rw [frameCommand_of_command, withArguments_isSome_iff, commandArguments, hc]
    rfl
  | none =>
    rw [frameCommand_of_unknown hc, commandArguments, hc]
    cases arguments <;> simp

/-! ## From the command to the bytes -/

theorem frameCommand_of_frame {i : Instr} {bytes : List Byte} (hwf : i.wellFormed = true) (h : i.frame = some bytes) :
    frameCommand bytes = some i := by
  cases i
  case writeWindow w r => cases h; exact withArguments_writeWindow w r
  case writeDomain d r => cases h; exact withArguments_writeDomain d r
  case raiseAction d a x =>
    cases h
    exact congrArg some (actionOf_raise d x (by simpa [Instr.wellFormed] using hwf))
  case badCommand code =>
    rw [Instr.frame, Option.ite_none_left_eq_some, Option.not_isSome_iff_eq_none] at h
    obtain ⟨hc, h⟩ := h
    cases h
    exact frameCommand_of_unknown hc []
  -- A row that is no executed command has no frame, and the others compute.
  all_goals cases h <;> rfl

/-! ## The fields of the signal groups -/

theorem requestOf_fields (r : Request) :
    requestOf (BitVec.ofNat 4 r.initiator.val) r.tag (if r.direction = .write then 1 else 0)
      (if r.privilege = .privileged then 1 else 0) r.address r.length r.lanes = r := by
  have hinitiator : (BitVec.ofNat 4 r.initiator.val).toFin = r.initiator := Fin.ofNat_val_eq_self r.initiator
  have hdirection : directionOf (if r.direction = .write then 1 else 0) = r.direction := by cases r.direction <;> rfl
  have hprivilege : privilegeOf (if r.privilege = .privileged then 1 else 0) = r.privilege := by
    cases r.privilege <;> rfl
  rw [requestOf, hinitiator, hdirection, hprivilege]

theorem acknowledgeOf_fields (o : AckOutcome) (d : DomainId) :
    acknowledgeOf o.bit (BitVec.ofNat 3 d.val) = .acknowledge o d := by
  have hdomain : (BitVec.ofNat 3 d.val).toFin = d := Fin.ofNat_val_eq_self d
  cases o <;> rw [acknowledgeOf, hdomain] <;> rfl

/-- Settles O60: a frame is read by its code and then by its argument bytes, and is written by the command it spells. -/
theorem framesSpellCommands : Obligations.FramesSpellCommands := by
  refine ⟨fun i bytes => frameCommand_of_frame, fun bytes i => spelled_of_frameCommand, frameCommand_isSome_iff,
    fun d x => ⟨rfl, rfl, rfl, rfl, rfl⟩,
    fun x => ⟨rfl, rfl, rfl, rfl, rfl, rfl, rfl, fun y z => ⟨rfl, rfl⟩, withArguments_writeWindow x,
      withArguments_writeDomain x⟩,
    requestOf_fields, fun d => ⟨acknowledgeOf_fields .done d, acknowledgeOf_fields .refused d⟩⟩

end Sys2Proof.Proofs
end

section
/-! The phases of a frame (R156 to R160). -/

namespace Sys2Proof.Proofs

-- One proof after another: the memory of a compile grows with the proofs that run at once.
set_option Elab.async false

open Sys2Proof.Machine Sys2Proof.Claims

/-! ## The beginning and the end of a frame -/

section ChipSelect

variable (s : State)

theorem exec_chipSelectFalling_def : exec .chipSelectFalling s = execChipSelectFalling s := rfl
theorem exec_frameEnd_def : exec .frameEnd s = execFrameEnd s := rfl
theorem exec_ignoringEnd_def : exec .ignoringEnd s = execIgnoringEnd s := rfl
theorem exec_frameAbort_def (bits : List Bool) : exec (.frameAbort bits) s = execFrameAbort bits s := rfl
theorem exec_badCommand_def (code : Byte) : exec (.badCommand code) s = execBadCommand code s := rfl

variable {s}

theorem exec_chipSelectFalling_of_idle (h : s.port.phase = .idle) :
    exec .chipSelectFalling s =
      .next { s with port := ⟨if s.inReset then .ignoring else .command, s.port.aborted, [], 0⟩ } := by
  rw [exec_chipSelectFalling_def, execChipSelectFalling, if_pos h]

theorem exec_chipSelectFalling_of_not_idle (h : s.port.phase ≠ .idle) : exec .chipSelectFalling s = .next s := by
  rw [exec_chipSelectFalling_def, execChipSelectFalling, if_neg h]

theorem exec_frameEnd_of_result (h : s.port.phase = .result) :
    exec .frameEnd s = .next { s with port := ⟨.idle, s.port.aborted, [], 0⟩ } := by
  rw [exec_frameEnd_def, execFrameEnd, if_pos h]

theorem exec_frameEnd_of_not_result (h : s.port.phase ≠ .result) : exec .frameEnd s = .next s := by
  rw [exec_frameEnd_def, execFrameEnd, if_neg h]

theorem exec_ignoringEnd_of_ignoring (h : s.port.phase = .ignoring) :
    exec .ignoringEnd s = .next { s with port := { s.port with phase := .idle } } := by
  rw [exec_ignoringEnd_def, execIgnoringEnd, if_pos h]

theorem exec_ignoringEnd_of_not_ignoring (h : s.port.phase ≠ .ignoring) : exec .ignoringEnd s = .next s := by
  rw [exec_ignoringEnd_def, execIgnoringEnd, if_neg h]

end ChipSelect

/-! ## A frame that is aborted -/

section Abort

variable {s : State} {bits : List Bool}

theorem mayAbort_iff :
    s.mayAbort bits = true ↔
      s.awaits (commandOf? (firstByte bits)) = true ∧ notYetExecuted bits = true ∧
        (s.port.phase = .command ∨ 8 ≤ bits.length) := by
  simp [State.mayAbort, and_assoc]

theorem exec_frameAbort_of_mayAbort (h : s.mayAbort bits = true) :
    exec (.frameAbort bits) s =
      .next { s with port := { s.port with phase := .idle, aborted := s.port.aborted || !bits.isEmpty } } := by
  rw [exec_frameAbort_def, execFrameAbort, if_pos h]

theorem exec_frameAbort_of_not_mayAbort (h : ¬s.mayAbort bits = true) : exec (.frameAbort bits) s = .next s := by
  rw [exec_frameAbort_def, execFrameAbort, if_neg h]

theorem not_mayAbort_of_executed (h : notYetExecuted bits = false) : ¬s.mayAbort bits = true := by
  rw [mayAbort_iff, h]
  rintro ⟨-, hexecuted, -⟩
  cases hexecuted

/-- In ARGUMENTS the bits of the frame begin with the code of its command (log 8). -/
theorem not_mayAbort_of_other_bits {a : Command} (hp : s.port.phase = .arguments a)
    (h : bits.length < 8 ∨ commandOf? (firstByte bits) ≠ some a) : ¬s.mayAbort bits = true := by
  rw [mayAbort_iff, awaits_iff, hp]
  rintro ⟨⟨-, hawaits⟩, -, hbits⟩
  rcases h with hshort | hother
  · rcases hbits with hcommand | hlong
    · cases hcommand
    · exact hshort.not_ge hlong
  · rcases hawaits with hcommand | ⟨c, hc, hphase⟩
    · cases hcommand
    · cases hphase
      exact hother hc

end Abort

/-! ## The eighth bit of byte 0 -/

theorem exec_badCommand_of_command {s : State} {code : Byte} {c : Command} (hf : s.awaits none = true)
    (hc : commandOf? code = some c) : exec (.badCommand code) s = .next (takeCode c s) := by
  simp only [exec_badCommand_def, execBadCommand, inFrame_open hf, hc]

theorem exec_badCommand_of_unknown {s : State} {code : Byte} (hf : s.awaits none = true)
    (hc : commandOf? code = none) : exec (.badCommand code) s = .next (answered [0x01] s) := by
  simp only [exec_badCommand_def, execBadCommand, inFrame_open hf, hc, reply_eq_answered, Status.value]

/-- Settles O9: by the phase, and for FRAME_ABORT by the bits. -/
theorem framePhases : Obligations.FramePhases := by
  intro s
  refine ⟨exec_chipSelectFalling_of_idle, exec_chipSelectFalling_of_not_idle, fun code c hr hp hc => ?_, awaits_iff s,
    fun bits hf hbits hn => exec_frameAbort_of_mayAbort (mayAbort_iff.mpr ⟨hf, hn, hbits⟩),
    fun bits hn => exec_frameAbort_of_not_mayAbort (not_mayAbort_of_executed hn),
    fun bits a hp h => exec_frameAbort_of_not_mayAbort (not_mayAbort_of_other_bits hp h), exec_frameEnd_of_result,
    exec_frameEnd_of_not_result, exec_ignoringEnd_of_ignoring, exec_ignoringEnd_of_not_ignoring⟩
  exact exec_badCommand_of_command ((awaits_iff s none).mpr ⟨hr, .inl hp⟩) hc

/-! ## A code that names no command -/

theorem commandOf?_eq_none {code : Byte}
    (h : code.toNat ∉ [0x01, 0x02, 0x10, 0x11, 0x20, 0x21, 0x22, 0x30, 0x38, 0x39, 0x40, 0x41]) :
    commandOf? code = none := by
  revert code; decide

/-- The bytes of a frame that shifts out no records are its result (R157). -/
theorem resultBytes_answered (bytes : List Byte) (s : State) : (answered bytes s).resultBytes = bytes :=
  List.append_nil bytes

/-- Settles O10: the code names no command, and the result is the one byte BAD_COMMAND. -/
theorem unknownCodeIsBadCommand : Obligations.UnknownCodeIsBadCommand := by
  refine fun code s hcode hf => ⟨exec_badCommand_of_unknown hf (commandOf?_eq_none hcode), ?_, fun n hn => ?_⟩
  · rw [State.shiftedByte, resultBytes_answered]
    rfl
  · rw [State.shiftedByte, resultBytes_answered, List.getD_eq_default _ _ hn]

end Sys2Proof.Proofs
end

section
/-! What READ STATUS and READ DOMAIN report, SET MODE and SET EVENT CONTROL (R158, R163 to R165, R167, R169, R176, R178,
R184, R185). -/

namespace Sys2Proof.Proofs

-- One proof after another: the memory of a compile grows with the proofs that run at once.
set_option Elab.async false

open Sys2Proof.Machine Sys2Proof.Claims

/-! ## Fields side by side -/

/-- A field set before another weighs as many times more as the other has values (R178). -/
theorem ofNat_append {m j : Nat} (n k : Nat) (h : j < 2 ^ m) :
    BitVec.ofNat n k ++ BitVec.ofNat m j = BitVec.ofNat (n + m) (k * 2 ^ m + j) := by
  refine BitVec.eq_of_toNat_eq ?_
  have hlow : (k * 2 ^ m + j) % 2 ^ m = j := by rw [Nat.mul_add_mod', Nat.mod_eq_of_lt h]
  have hhigh : (k * 2 ^ m + j) / 2 ^ m = k := by
    rw [Nat.mul_comm, Nat.mul_add_div (Nat.two_pow_pos m), Nat.div_eq_of_lt h, Nat.add_zero]
  rw [BitVec.toNat_append, ← Nat.shiftLeft_add_eq_or_of_lt (BitVec.isLt _), Nat.shiftLeft_eq, BitVec.toNat_ofNat,
    BitVec.toNat_ofNat, BitVec.toNat_ofNat, Nat.mod_eq_of_lt h, Nat.add_comm n, pow_add, Nat.mod_mul, hlow, hhigh]
  ring

theorem append_flag (n k : Nat) (b : Bool) :
    BitVec.ofNat n k ++ flag b = BitVec.ofNat (n + 1) (k * 2 + weigh 1 b) := by
  cases b
  · exact ofNat_append n k (j := 0) (m := 1) (by decide)
  · exact ofNat_append n k (j := 1) (m := 1) (by decide)

theorem weigh_eq_mul (w : Nat) (b : Bool) : weigh w b = w * weigh 1 b := by
  cases b <;> simp [weigh]

theorem append_four_flags (n k : Nat) (f₃ f₂ f₁ f₀ : Bool) :
    BitVec.ofNat n k ++ flag f₃ ++ flag f₂ ++ flag f₁ ++ flag f₀ =
      BitVec.ofNat (n + 4) (weigh 1 f₀ + weigh 2 f₁ + weigh 4 f₂ + weigh 8 f₃ + 16 * k) := by
  rw [append_flag, append_flag, append_flag, append_flag, weigh_eq_mul 2, weigh_eq_mul 4, weigh_eq_mul 8]
  refine congrArg (BitVec.ofNat (n + 4)) ?_
  omega

theorem stateCode_lt (x : DomainState) : stateCode x < 8 := by
  cases x <;> decide

theorem state_value (x : DomainState) : x.value = BitVec.ofNat 3 (stateCode x) := by
  cases x <;> rfl

theorem level_value (x : Level) : x.value = flag (x == .off) := by
  cases x <;> rfl

/-! ## The bytes of READ STATUS -/

theorem mode_byte (m : Mode) : m.byte = if m = .governing then 1 else 0 := by
  cases m <;> rfl

theorem statusFlags_eq (s : State) :
    statusFlags s =
      BitVec.ofNat 8
        (weigh 1 s.stalled.isSome + weigh 2 s.port.aborted + weigh 4 s.control.alertEnable
          + weigh 8 s.control.globalReport + weigh 16 (s.control.openPolicy == .stall)) := by
  unfold statusFlags
  cases s.control.openPolicy
  case decline => exact append_four_flags 4 0 _ _ _ _
  case stall => exact append_four_flags 4 1 _ _ _ _

theorem stateNibbles_eq (s : State) (d c : DomainId) :
    stateNibble s d ++ stateNibble s c =
      BitVec.ofNat 8 (16 * stateCode (s.dom d).state + stateCode (s.dom c).state) := by
  have hnibble (d : DomainId) : stateNibble s d = BitVec.ofNat 4 (stateCode (s.dom d).state) := by
    unfold stateNibble
    cases (s.dom d).state <;> rfl
  rw [hnibble, hnibble, ofNat_append 4 _ ((stateCode_lt _).trans (by decide)), Nat.mul_comm]
  rfl

/-- Settles O11: the flags and the nibbles by their weights, and every other byte as it is held. -/
theorem readStatusReports : Obligations.ReadStatusReports := by
  intro s hf
  change execReadStatus s = _
  simp only [execReadStatus, inFrame_open hf, statusBytes, mode_byte, statusFlags_eq, stateNibbles_eq]
  rfl

/-! ## SET MODE -/

theorem exec_setMode_def (b : Byte) (s : State) : exec (.setMode b) s = execSetMode b s := rfl

theorem mayGoTransparent_iff (s : State) :
    s.mayGoTransparent = true ↔
      (∀ d, (s.dom d).state = .active ∧ (s.dom d).contentsValid = true) ∧ s.holdBudget = 0 := by
  simp [State.mayGoTransparent]

theorem modeOf?_eq_none {b : Byte} (h0 : b ≠ 0) (h1 : b ≠ 1) : modeOf? b = none := by
  rw [modeOf?, if_neg h0, if_neg h1]

theorem takeMode_same {m : Mode} {s : State} (h : s.mode = m) : takeMode m s = answered [0x00, m.byte] s := by
  unfold takeMode
  rw [if_pos h]
  rfl

theorem takeMode_governing {s : State} (h : s.mode = .transparent) :
    takeMode .governing s = answered [0x00, 1] { s with mode := .governing, switches := allDomains } := by
  simp only [takeMode, h, reduceCtorEq, if_false]
  rfl

/-- The switch to TRANSPARENT is guarded (R165). -/
theorem takeMode_transparent {s : State} (h : s.mode = .governing) :
    takeMode .transparent s =
      if s.mayGoTransparent then
        answered [0x00, 0]
          { s with
            mode := .transparent, switches := []
            domains := s.domains.map (fun x => { x with idleTimer := none }) }
      else answered [0x04] s := by
  simp only [takeMode, h, reduceCtorEq, if_false, switchToTransparent, mapTable_eq]
  rfl

section SetMode

variable {s : State} (hf : s.awaits (some .setMode) = true) {b : Byte}
include hf

theorem exec_setMode_refused (hb : modeOf? b = none) : exec (.setMode b) s = .next (answered [0x03] s) := by
  simp only [exec_setMode_def, execSetMode, inFrame_open hf, hb, reply_eq_answered, Status.value]

theorem exec_setMode {m : Mode} (hb : modeOf? b = some m) : exec (.setMode b) s = .next (takeMode m s) := by
  simp only [exec_setMode_def, execSetMode, inFrame_open hf, hb]

end SetMode

/-- Settles O12: by the value, the mode in force and the guard. -/
theorem setModeSwitches : Obligations.SetModeSwitches := by
  intro s hf
  have hzero : exec (.setMode 0) s = .next (takeMode .transparent s) := exec_setMode hf rfl
  have hone : exec (.setMode 1) s = .next (takeMode .governing s) := exec_setMode hf rfl
  refine ⟨fun b h0 h1 => exec_setMode_refused hf (modeOf?_eq_none h0 h1), fun hm => ⟨?_, ?_⟩,
    fun hm => ⟨?_, fun hguard => ?_, fun hguard => ?_⟩⟩
  · rw [hzero, takeMode_same hm, Mode.byte]
  · rw [hone, takeMode_governing hm]
  · rw [hone, takeMode_same hm, Mode.byte]
  · rw [hzero, takeMode_transparent hm, if_pos ((mayGoTransparent_iff s).mpr hguard)]
  · rw [hzero, takeMode_transparent hm, if_neg (mt (mayGoTransparent_iff s).mp hguard)]

/-! ## The bytes of READ DOMAIN -/

theorem exec_readDomain_def (b : Byte) (s : State) : exec (.readDomain b) s = execReadDomain b s := rfl

/-- Byte 6 of a domain record: the pin, its level and the discardable flag (R184). -/
theorem pinByte_eq (x : Domain) :
    (0 : BitVec 3) ++ ((0 : BitVec 1) ++ x.pinLevel.value) ++ x.pin.value ++ flag x.discardable =
      BitVec.ofNat 8
        (weigh 1 x.discardable + weigh 2 (x.pin == .holdOn) + weigh 4 (x.pin == .holdLow)
          + weigh 8 (x.pinLevel == .off)) := by
  cases x.pinLevel <;> cases x.pin <;> cases x.discardable <;> rfl

theorem domainFlags_eq (s : State) (d : DomainId) :
    domainFlags s d =
      BitVec.ofNat 8
        (stateCode (s.dom d).state + weigh 8 ((s.dom d).level == .off) + weigh 16 (s.dom d).contentsValid
          + weigh 32 (s.dom d).wakePending + weigh 64 (s.slot d).isTaken) := by
  have hflags :
      domainFlags s d =
        BitVec.ofNat 1 0 ++ flag (s.slot d).isTaken ++ flag (s.dom d).wakePending ++ flag (s.dom d).contentsValid
          ++ flag ((s.dom d).level == .off) ++ BitVec.ofNat 3 (stateCode (s.dom d).state) := by
    rw [← level_value, ← state_value]
    rfl
  rw [hflags, append_four_flags, ofNat_append _ _ (stateCode_lt _), weigh_eq_mul 2, weigh_eq_mul 4, weigh_eq_mul 8,
    weigh_eq_mul 8, weigh_eq_mul 16, weigh_eq_mul 32, weigh_eq_mul 64]
  refine congrArg (BitVec.ofNat 8) ?_
  omega

section ReadDomain

variable {s : State} (hf : s.awaits (some .readDomain) = true)
include hf

theorem exec_readDomain_refused {b : Byte} (hb : 8 ≤ b.toNat) :
    exec (.readDomain b) s = .next (answered [0x02] s) := by
  simp only [exec_readDomain_def, execReadDomain, inFrame_open hf, domainOf?_eq_none hb, reply_eq_answered,
    Status.value]

theorem exec_readDomain (d : DomainId) :
    exec (.readDomain (BitVec.ofNat 8 d.val)) s = .next (answered (0x00 :: domainBytes s d) s) := by
  simp only [exec_readDomain_def, execReadDomain, inFrame_open hf, domainOf?_ofNat, reply_eq_answered, Status.value]

end ReadDomain

/-- Settles O15: the flags by their weights, and the remaining units by whether the timer runs. -/
theorem readDomainReports : Obligations.ReadDomainReports := by
  refine fun s hf => ⟨fun b => exec_readDomain_refused hf, fun d => ?_⟩
  rw [exec_readDomain hf, domainBytes, Domain.configBytes, pinByte_eq, domainFlags_eq]
  cases (s.dom d).idleTimer <;> cases (s.dom d).deepTimer <;> rfl

/-! ## SET EVENT CONTROL -/

theorem policyOf?_eq_some {f : Byte} (h : f.toNat / 4 % 4 < 2) :
    policyOf? (f.extractLsb' 2 2) = some (if f.toNat / 4 % 4 = 1 then .stall else .decline) := by
  rw [policyOf?_eq_some_iff, ← BitVec.toNat_inj, toNat_extract_two]
  split
  case isTrue hone => exact hone
  case isFalse hother =>
    change f.toNat / 4 % 4 = 0
    omega

/-- Settles O26: by the policy; what was stored is then read back. -/
theorem eventControlsStored : Obligations.EventControlsStored := by
  refine fun s h l f hf => ⟨fun hbad => ?_, fun hgood => ?_⟩
  · refine exec_setEventControl_refused hf ((policyOf?_eq_none_iff _).mpr ?_)
    rwa [toNat_extract_two]
  · refine ⟨_, exec_setEventControl hf (policyOf?_eq_some hgood), rfl, ?_, ?_,
      alert_controlled ((awaits_iff s _).mp hf).1⟩
    · exact halfBytes_append h l
    · have hstall : ((if f.toNat / 4 % 4 = 1 then Policy.stall else .decline) == .stall) = (f.toNat / 4 % 4 == 1) := by
        split
        case isTrue hone => rw [hone]; rfl
        case isFalse hother => exact (beq_false_of_ne hother).symm
      rw [statusFlags_eq, ← hstall]
      rfl

end Sys2Proof.Proofs
end

section
/-! One step: the command it takes, and the block that idles. -/

namespace Sys2Proof.Machine

/-! ## The two branches of a step -/

theorem step_pending_cons (c : Instr) (rest : List Instr) (s : State) :
    step { s with pending := c :: rest } = exec c { s with pending := rest } := rfl

theorem step_of_pending_nil {s : State} (h : s.pending = []) : step s = .next s := by
  rw [step, h]

end Sys2Proof.Machine

namespace Sys2Proof.Proofs

open Sys2Proof.Machine

/-- Settles O1: by the two branches of a step, a command at the front and an empty queue. -/
theorem stepRunsFrontCommand : Obligations.StepRunsFrontCommand :=
  ⟨step_pending_cons, fun _ => step_of_pending_nil⟩

end Sys2Proof.Proofs
end
